-- ==== Sys2Proof/Word.lean ====
section
/-! DEFINITION. The widths the spec names: bytes, device offsets, command words and the operand registers
(spec/00_scope.md R6, R9). -/

namespace Sys2Proof

/-- One byte: a data byte, a bus address (R74) or half a device offset (R57). -/
abbrev Byte := BitVec 8

/-- A device offset, the width of CURSOR (R20). -/
abbrev Offset := BitVec 16

/-- A command word (R70). -/
abbrev CmdWord := BitVec 16

/-- An element count, the width of LEN (R22). -/
abbrev Count := BitVec 17

/-- Milliseconds as the clock reads them and as SETTLE holds them (R14, R23). -/
abbrev Millis := BitVec 32

end Sys2Proof
end

