-- ==== Sys2Proof/Config.lean ====
section
/-! DEFINITION. What is fixed for the machine: the constants of spec/00_scope.md R5, the three parameters R5 leaves
OPEN, the element types of R7 and R73, and the free values of the environment (R12, R190). -/

namespace Sys2Proof

/-- The nine element types of spec/30_encoding.md R73. -/
inductive ElemType where
  | b | u8 | i8 | u16 | i16 | u32 | i32 | f32 | f64
deriving DecidableEq, Repr

namespace Config

/-- R5: bytes in the device's linear address space. -/
def CAPACITY : Nat := 65536

/-- R5: the write page in bytes. -/
def PAGE : Nat := 64

/-- R5: milliseconds slept before each completion probe. -/
def POLL_INTERVAL : Millis := 1

/-- R5: milliseconds of polling after which a write fails with Timeout. -/
def POLL_TIMEOUT : Nat := 20

/-- R5: milliseconds without a byte after which a read fails with Timeout. -/
def READ_TIMEOUT : Nat := 20

/-- R5: SIZEOF_F64, the width of the double-precision element, is 4 or 8. -/
inductive F64Size where
  | four | eight
deriving DecidableEq, Repr, Inhabited

/-- R5, R8: HOST_ORDER, how the host lays out a multi-byte element. -/
inductive HostOrder where
  | little | big
deriving DecidableEq, Repr, Inhabited

/-- The parameters R5 leaves OPEN. They are fixed for a machine: every step keeps them. A claim over all states is a
claim over all their values (spec/92_eei_decisions.md D8, D19, D20). -/
structure Params where
  /-- READ_CAP - 1, so that every value meets 1 ≤ READ_CAP ≤ 255. -/
  readCapLess1 : Fin 255
  sizeofF64 : F64Size
  hostOrder : HostOrder
deriving DecidableEq, Repr

/-- READ_CAP, the most bytes one read request asks for (R5). -/
def Params.readCap (p : Params) : Nat := p.readCapLess1.val + 1

/-- The READ_CAP - 1 of the machine at hand: a free value, since the spec gives none (DESIGN CHOICE, log 11; safe). -/
opaque builtReadCapLess1 : Fin 255

/-- The HOST_ORDER of the machine at hand: a free value, since the spec gives none (DESIGN CHOICE, log 13; safe). -/
opaque builtHostOrder : HostOrder

/-- The parameters State.reset holds: SIZEOF_F64 is 8, the value column of R5 (DESIGN CHOICE, log 12; unsafe where
the host's double has 4 bytes). -/
def builtParams : Params :=
  { readCapLess1 := builtReadCapLess1, sizeofF64 := .eight, hostOrder := builtHostOrder }

/-- The raw answer of the transport at draw n, where the state lists none: a free value (R12, R192;
DESIGN CHOICE, log 1; safe). -/
opaque freeAnswer : Nat → Nat

/-- Amounts by which steps advance TIME beyond what they must, at draw 0, 1, 2, ...: any natural numbers (R190 c, d), but
infinitely many of them above 0, so that TIME grows without bound in every infinite run (fairness, R190 e). -/
structure FairDelays where
  amount : Nat → Nat := fun _ => 1
  fair : ∀ n, ∃ m, n ≤ m ∧ 0 < amount m := by exact fun n => ⟨n, Nat.le_refl n, Nat.one_pos⟩
deriving Inhabited

/-- The environment's amounts: a free value of which only fairness is known (R190; DESIGN CHOICE, log 2; safe). -/
opaque freeDelays : FairDelays

/-- By how many milliseconds more than it must TIME advances at draw n, where the state lists no delay (R190 c, d). -/
def freeDelay (n : Nat) : Nat := freeDelays.amount n

end Config

end Sys2Proof
end

