-- ==== Sys2Proof/Syntax.lean ====
section
/-! DEFINITION. The commands: one constructor per row of spec/opcode_table.json. -/

namespace Sys2Proof

/-- The 28 commands of R76. The one field of each is BUS, the bus address: any eight bits (R74). -/
inductive Instr where
  /-- WRITE.B, low byte 0x01 (R109). -/
  | writeB (bus : Byte)
  /-- ADDR, low byte 0x03 (R120). -/
  | addr (bus : Byte)
  /-- READ.B, low byte 0x02 (R137). -/
  | readB (bus : Byte)
  /-- READ.B.N, low byte 0x0A (R138). -/
  | readBN (bus : Byte)
  /-- WRITE.U8, low byte 0x11 (R150). -/
  | writeU8 (bus : Byte)
  /-- WRITE.I8, low byte 0x21 (R151). -/
  | writeI8 (bus : Byte)
  /-- WRITE.U16, low byte 0x31 (R152). -/
  | writeU16 (bus : Byte)
  /-- WRITE.I16, low byte 0x41 (R153). -/
  | writeI16 (bus : Byte)
  /-- WRITE.U32, low byte 0x51 (R154). -/
  | writeU32 (bus : Byte)
  /-- WRITE.I32, low byte 0x61 (R155). -/
  | writeI32 (bus : Byte)
  /-- WRITE.F32, low byte 0x71 (R156). -/
  | writeF32 (bus : Byte)
  /-- WRITE.F64, low byte 0x81 (R157). -/
  | writeF64 (bus : Byte)
  /-- READ.U8, low byte 0x12 (R160). -/
  | readU8 (bus : Byte)
  /-- READ.I8, low byte 0x22 (R161). -/
  | readI8 (bus : Byte)
  /-- READ.U16, low byte 0x32 (R162). -/
  | readU16 (bus : Byte)
  /-- READ.I16, low byte 0x42 (R163). -/
  | readI16 (bus : Byte)
  /-- READ.U32, low byte 0x52 (R164). -/
  | readU32 (bus : Byte)
  /-- READ.I32, low byte 0x62 (R165). -/
  | readI32 (bus : Byte)
  /-- READ.F32, low byte 0x72 (R166). -/
  | readF32 (bus : Byte)
  /-- READ.F64, low byte 0x82 (R167). -/
  | readF64 (bus : Byte)
  /-- READ.U8.N, low byte 0x1A (R170). -/
  | readU8N (bus : Byte)
  /-- READ.I8.N, low byte 0x2A (R171). -/
  | readI8N (bus : Byte)
  /-- READ.U16.N, low byte 0x3A (R172). -/
  | readU16N (bus : Byte)
  /-- READ.I16.N, low byte 0x4A (R173). -/
  | readI16N (bus : Byte)
  /-- READ.U32.N, low byte 0x5A (R174). -/
  | readU32N (bus : Byte)
  /-- READ.I32.N, low byte 0x6A (R175). -/
  | readI32N (bus : Byte)
  /-- READ.F32.N, low byte 0x7A (R176). -/
  | readF32N (bus : Byte)
  /-- READ.F64.N, low byte 0x8A (R177). -/
  | readF64N (bus : Byte)
deriving DecidableEq, Repr

/-- The WRITE.T command of an element type. -/
def Instr.write : ElemType → Byte → Instr
  | .b => .writeB
  | .u8 => .writeU8
  | .i8 => .writeI8
  | .u16 => .writeU16
  | .i16 => .writeI16
  | .u32 => .writeU32
  | .i32 => .writeI32
  | .f32 => .writeF32
  | .f64 => .writeF64

/-- The READ.T command of an element type (N = 0, the buffered read). -/
def Instr.read : ElemType → Byte → Instr
  | .b => .readB
  | .u8 => .readU8
  | .i8 => .readI8
  | .u16 => .readU16
  | .i16 => .readI16
  | .u32 => .readU32
  | .i32 => .readI32
  | .f32 => .readF32
  | .f64 => .readF64

/-- The READ.T.N command of an element type (N = 1, the null-buffer seek). -/
def Instr.seek : ElemType → Byte → Instr
  | .b => .readBN
  | .u8 => .readU8N
  | .i8 => .readI8N
  | .u16 => .readU16N
  | .i16 => .readI16N
  | .u32 => .readU32N
  | .i32 => .readI32N
  | .f32 => .readF32N
  | .f64 => .readF64N

end Sys2Proof
end

