-- ==== Sys2Proof/WellFormed.lean ====
section
/-! DEFINITION. What makes a command word and an Issue request well formed, checked field by field
(spec/30_encoding.md R71 to R74, R78; spec/60_exceptions.md R185), and the operands an Issue transaction carries beside the
command word (spec/30_encoding.md R75). -/

namespace Sys2Proof

namespace WellFormed

/-- R71: OP is WRITE (001), READ (010) or ADDR (011). -/
def opLegal (w : CmdWord) : Bool :=
  let op := w.extractLsb' 0 3
  op == 1#3 || op == 2#3 || op == 3#3

/-- R72: N = 1 only for READ. -/
def nullLegal (w : CmdWord) : Bool :=
  w.extractLsb' 3 1 == 0#1 || w.extractLsb' 0 3 == 2#3

/-- R73: T is 0000 to 1000, and 0000 for ADDR. -/
def typeLegal (w : CmdWord) : Bool :=
  let t := w.extractLsb' 4 4
  if w.extractLsb' 0 3 == 3#3 then t == 0#4 else decide (t ≤ 8#4)

/-- A command word is legal when each of its fields is; BUS may be anything (R74). -/
def commandWord (w : CmdWord) : Bool :=
  opLegal w && nullLegal w && typeLegal w

/-- R25, R185: a lent buffer has fewer than 2^20 bytes. -/
def bufferLength (bytes : List Byte) : Bool := decide (bytes.length < 2 ^ 20)

end WellFormed

/-- A byte array the host may lend, byte 0 first: its length is below 2^20 (R25, R185). -/
abbrev LentBuffer := { bytes : List Byte // WellFormed.bufferLength bytes = true }

/-- What the host sends with one Issue (R185): the command word and the operands of R75. A longer buffer is no Issue transaction, so
none can be written down. -/
structure IssueReq where
  cmd : CmdWord
  /-- The value for CURSOR; none is KEEP. -/
  cur : Option Offset
  len : Count
  settle : Millis
  /-- The lent transfer buffer; none is no buffer. -/
  buf : Option LentBuffer
deriving DecidableEq, Repr

/-- A request the engine does not refuse for its word: the word is legal; its buffer has a legal length by its type. -/
def WellFormed.request (r : IssueReq) : Bool := commandWord r.cmd

/-- Every command is well formed as a term: its only field is BUS, and R74 admits every eight-bit value of it. -/
def Instr.wf : Instr → Bool
  | .writeB _ => true
  | .addr _ => true
  | .readB _ => true
  | .readBN _ => true
  | .writeU8 _ => true
  | .writeI8 _ => true
  | .writeU16 _ => true
  | .writeI16 _ => true
  | .writeU32 _ => true
  | .writeI32 _ => true
  | .writeF32 _ => true
  | .writeF64 _ => true
  | .readU8 _ => true
  | .readI8 _ => true
  | .readU16 _ => true
  | .readI16 _ => true
  | .readU32 _ => true
  | .readI32 _ => true
  | .readF32 _ => true
  | .readF64 _ => true
  | .readU8N _ => true
  | .readI8N _ => true
  | .readU16N _ => true
  | .readI16N _ => true
  | .readU32N _ => true
  | .readI32N _ => true
  | .readF32N _ => true
  | .readF64N _ => true

end Sys2Proof
end

