-- ==== Sys2Proof/Decode.lean ====
section
/-! DEFINITION. The decoder and, after it, the encoder of spec/30_encoding.md R70, R76 and R78. The decoder is total on the
16-bit command words: a word whose low byte matches no row is rejected (the reserved words of R77). -/

namespace Sys2Proof

/-- One row of the opcode map of R76: the value bits [7:0] must have, and the command it stands for. -/
structure OpcodeRow where
  low : Byte
  build : Byte → Instr

/-- CMD & 0x00FF as a byte: the fields OP, N and T. -/
def lowByte (w : CmdWord) : Byte := w.extractLsb' 0 8

/-- CMD[15:8], the field BUS. -/
def busField (w : CmdWord) : Byte := w.extractLsb' 8 8

/-- The rows of R76 for WRITE.T. -/
def writeRows : List OpcodeRow :=
  [ ⟨0x01, .writeB⟩, ⟨0x11, .writeU8⟩, ⟨0x21, .writeI8⟩,
    ⟨0x31, .writeU16⟩, ⟨0x41, .writeI16⟩, ⟨0x51, .writeU32⟩,
    ⟨0x61, .writeI32⟩, ⟨0x71, .writeF32⟩, ⟨0x81, .writeF64⟩ ]

/-- The rows of R76 for READ.T. -/
def readRows : List OpcodeRow :=
  [ ⟨0x02, .readB⟩, ⟨0x12, .readU8⟩, ⟨0x22, .readI8⟩,
    ⟨0x32, .readU16⟩, ⟨0x42, .readI16⟩, ⟨0x52, .readU32⟩,
    ⟨0x62, .readI32⟩, ⟨0x72, .readF32⟩, ⟨0x82, .readF64⟩ ]

/-- The rows of R76 for READ.T.N. -/
def seekRows : List OpcodeRow :=
  [ ⟨0x0A, .readBN⟩, ⟨0x1A, .readU8N⟩, ⟨0x2A, .readI8N⟩,
    ⟨0x3A, .readU16N⟩, ⟨0x4A, .readI16N⟩, ⟨0x5A, .readU32N⟩,
    ⟨0x6A, .readI32N⟩, ⟨0x7A, .readF32N⟩, ⟨0x8A, .readF64N⟩ ]

/-- The row of R76 for ADDR. -/
def addrRows : List OpcodeRow :=
  [ ⟨0x03, .addr⟩ ]

/-- The opcode map of R76. -/
def opcodeRows : List OpcodeRow := writeRows ++ readRows ++ seekRows ++ addrRows

/-- The command of a word, or none where the word is reserved (R78). -/
def decode (w : CmdWord) : Option Instr :=
  match opcodeRows.find? (fun row => row.low == lowByte w) with
  | some row => some (row.build (busField w))
  | none => none

/-- Bits [7:0] of a command's word, from the encoding line of its rule. -/
def Instr.low : Instr → Byte
  | .writeB _ => 0x01
  | .addr _ => 0x03
  | .readB _ => 0x02
  | .readBN _ => 0x0A
  | .writeU8 _ => 0x11
  | .writeI8 _ => 0x21
  | .writeU16 _ => 0x31
  | .writeI16 _ => 0x41
  | .writeU32 _ => 0x51
  | .writeI32 _ => 0x61
  | .writeF32 _ => 0x71
  | .writeF64 _ => 0x81
  | .readU8 _ => 0x12
  | .readI8 _ => 0x22
  | .readU16 _ => 0x32
  | .readI16 _ => 0x42
  | .readU32 _ => 0x52
  | .readI32 _ => 0x62
  | .readF32 _ => 0x72
  | .readF64 _ => 0x82
  | .readU8N _ => 0x1A
  | .readI8N _ => 0x2A
  | .readU16N _ => 0x3A
  | .readI16N _ => 0x4A
  | .readU32N _ => 0x5A
  | .readI32N _ => 0x6A
  | .readF32N _ => 0x7A
  | .readF64N _ => 0x8A

/-- BUS of a command. -/
def Instr.bus : Instr → Byte
  | .writeB bus => bus
  | .addr bus => bus
  | .readB bus => bus
  | .readBN bus => bus
  | .writeU8 bus => bus
  | .writeI8 bus => bus
  | .writeU16 bus => bus
  | .writeI16 bus => bus
  | .writeU32 bus => bus
  | .writeI32 bus => bus
  | .writeF32 bus => bus
  | .writeF64 bus => bus
  | .readU8 bus => bus
  | .readI8 bus => bus
  | .readU16 bus => bus
  | .readI16 bus => bus
  | .readU32 bus => bus
  | .readI32 bus => bus
  | .readF32 bus => bus
  | .readF64 bus => bus
  | .readU8N bus => bus
  | .readI8N bus => bus
  | .readU16N bus => bus
  | .readI16N bus => bus
  | .readU32N bus => bus
  | .readI32N bus => bus
  | .readF32N bus => bus
  | .readF64N bus => bus

/-- The command word {BUS, match[7:0]} of R76. -/
def encode (i : Instr) : CmdWord := i.bus ++ i.low

/-- The command read from a word numbered as spec/opcode_table.json numbers it. The command word is latched whole (R64), so
no byte order comes in; bits from nbits up are 0, and a word of more than 16 bits is no command word (R70). -/
def decodeTableWord (nbits w : Nat) : Option Instr :=
  let v := w % 2 ^ nbits
  if v < 2 ^ 16 then decode (BitVec.ofNat 16 v) else none

end Sys2Proof
end

