-- ==== Sys2Proof/Machine/State.lean ====
section
/-! DEFINITION. The state of the engine as plain data (spec/10_state.md), the host's moves and what the host is answered
(spec/60_exceptions.md R185 to R189), the environment's answers to come (spec/00_scope.md R12, R14), the ways a step can stop, and
the state after reset (spec/10_state.md R36). -/

namespace Sys2Proof.Machine

/-- The close status of TxEnd (spec/00_scope.md R13). -/
inductive TxStatus where
  | ok | tooLong | nackAddr | nackData | other
deriving DecidableEq, Repr

/-- The eight result codes of spec/60_exceptions.md R180, in the order of their numbers 0 to 7. -/
inductive ResultCode where
  | success | dataTooLongToBuffer | nackOnAddr | nackOnData | otherTransmissionError
  | exceedRomCapacity | unexpectedDataLength | timeout
deriving DecidableEq, Repr

/-- The reasons of fault(reason): BUF_OOB (spec/20_memory.md R51) and BAD_ANSWER (spec/60_exceptions.md R191). -/
inductive EngineFault where
  | bufOob | badAnswer
deriving DecidableEq, Repr

/-- STATE, the sequencer state of R26: the primitive the engine performs at its next step. FAULT keeps the reason it was
entered with. The codes 24 to 30 have no name here, so they are never entered. -/
inductive Seq where
  | idle
  | wBegin | wAhi | wAlo | wData | wEnd | wSettle | wPmark | wPsleep
  | pBegin | pAhi | pAlo | pEnd | wPchk
  | rReq | rMark | rAvail | rByte | rTmark | rTchk
  | aBegin | aAhi | aAlo | aEnd
  | fault (reason : EngineFault)
deriving DecidableEq, Repr

/-- The events of HIST (R35): one constructor for each primitive of spec/00_scope.md R12 and R14, and Issue, Done and
Refused. -/
inductive Event where
  | begin (target : Byte)
  | wr (b : Byte)
  | endTx (status : TxStatus)
  | req (target count received : Byte)
  | avail (v : Bool)
  | rd (b : Byte)
  | ms (t : Millis)
  | sleep (k : Millis)
  /-- Issue(cmd, cursor, len, settle, buflen); the cursor is none where the host sent KEEP. -/
  | issue (cmd : CmdWord) (cur : Option Offset) (len : Count) (settle : Millis) (bufLen : Nat)
  | done (r : ResultCode)
  | refused (cmd : CmdWord)
deriving DecidableEq, Repr

/-- The reasons of refuse(reason) (spec/60_exceptions.md R186). -/
inductive RefuseReason where
  | reservedEncoding | busy | faulted | noCursor | noBuffer
deriving DecidableEq, Repr

/-- What a host may read (spec/60_exceptions.md R187, R189). -/
inductive HostReg where
  | status | busy | cursor | bptr
  | bufByte (index : Nat)
deriving DecidableEq, Repr

/-- One move of the host (spec/60_exceptions.md R185, R189; spec/70_reset_and_hazards.md R200, R201). -/
inductive HostMove where
  /-- Issue, whatever the engine is doing. -/
  | issue (r : IssueReq)
  /-- Issue as a synchronous call: it lands once no command runs (R187). -/
  | call (r : IssueReq)
  | reset
  | read (reg : HostReg)
  /-- No move in this step. -/
  | pass
deriving DecidableEq, Repr

/-- What the host was answered to its last move: nothing yet, an accepted issue, the reasons of a refusal (R186), or the
value it read. -/
inductive HostReply where
  | none
  | accepted
  | refused (reasons : List RefuseReason)
  | value (n : Nat)
deriving DecidableEq, Repr

/-- The ways a step stops. -/
inductive Fault where
  /-- Raised by the sequencer in FAULT when the host makes no move: no step leaves FAULT (R27). Safe: the spec has no further
  step there either. -/
  | engineStopped (reason : EngineFault)
  /-- Raised by a host read of STATUS while RESULT holds no value and of CURSOR while it holds none (R36; 92_eei_decisions.md D16).
  Safe: the spec faults these reads. -/
  | registerHasNoValue (reg : HostReg)
  /-- Raised by a host read of CURSOR, BPTR or BUF while a command runs (R189, R207): the host has no such move. Safe. -/
  | hostTouchedWhileBusy (reg : HostReg)
  /-- Raised by a host read of a buffer byte at or above BUFLEN: no such byte exists (R50). Safe. -/
  | hostReadOutsideBuffer (index : Nat)
deriving DecidableEq, Repr

/-- The instructions without a meaning. -/
inductive Refusal where
  /-- Raised by exec's arm of an instruction that has no meaning yet. Safe: nothing is proved of such a run. -/
  | notModelled (mnemonic : String)
deriving DecidableEq, Repr

/-- The transfer buffer's bytes: pairs of index and byte in rising order of the index, none equal to the 0 that an unlisted
index reads as. The host lends every byte of the buffer, so the 0 is how data is written down and no value the model chose
(log 14). -/
abbrev Memory := List Host.Cell
/-- The state of the machine: the engine's registers, then the environment's and the host's inputs. -/
structure State where
  /-- CURSOR (R20). -/
  cursor : Offset
  /-- Whether CURSOR and the other operand registers hold a value (R36); set by the first accepted issue (log 5). -/
  cursorLoaded : Bool
  /-- LEN (R22). -/
  len : Count
  /-- SETTLE (R23). -/
  settle : Millis
  /-- CMD (R24). -/
  cmd : CmdWord
  /-- BUF, the lent transfer buffer (R25). -/
  buf : Memory
  /-- BUFLEN (R25): below 2^20, since every lent buffer is (Safety.BufferInv). -/
  bufLen : Nat
  /-- STATE (R26). -/
  seq : Seq
  /-- REM (R28). -/
  rem : BitVec 17
  /-- BPTR (R29). -/
  bptr : BitVec 17
  /-- BYTELEN (R30). -/
  bytelen : BitVec 20
  /-- CHUNK (R31). -/
  chunk : BitVec 8
  /-- CIDX (R31). -/
  cidx : BitVec 8
  /-- TMARK (R32). -/
  tmark : Millis
  /-- STATUS.RESULT (R33). -/
  result : ResultCode
  /-- Whether STATUS.RESULT holds a value (R36); set by the first finish (log 5). -/
  resultValid : Bool
  /-- STATUS.BUSY (R33). -/
  busy : Bool
  /-- HIST, oldest event first (R35). -/
  hist : List Event
  /-- The parameters R5 leaves OPEN; no step changes them. -/
  params : Config.Params
  /-- TIME, the environment's true time in milliseconds (spec/60_exceptions.md R190). -/
  time : Nat
  /-- The model's own: raw transport answers to come, the next first; where none is listed the answer is free (log 1). -/
  answers : List Nat
  /-- The model's own: by how much more than it must each coming step advances TIME; where none is listed the amount is free
  (log 2). -/
  delays : List Nat
  /-- The model's own: how many free answers have been drawn (log 1). -/
  draws : Nat
  /-- The model's own: how many free amounts of TIME have been drawn (log 2). -/
  ticks : Nat
  /-- The model's own: the host's coming moves, the next first (log 8). -/
  inbox : List HostMove
  /-- The model's own: what the host was answered to its last move (log 7). -/
  reply : HostReply
deriving DecidableEq, Repr

/-- The machine right after reset (R36, R200): IDLE, not busy, HIST empty. The registers that R36 gives no value hold 0
(DESIGN CHOICE, log 4; unsafe) with cursorLoaded and resultValid false; TIME is 0 (DESIGN CHOICE, log 3; unsafe); no input is
listed (log 8). -/
def State.reset : State :=
  { cursor := 0, cursorLoaded := false, len := 0, settle := 0, cmd := 0, buf := [], bufLen := 0,
    seq := .idle, rem := 0, bptr := 0, bytelen := 0, chunk := 0, cidx := 0, tmark := 0,
    result := .success, resultValid := false, busy := false, hist := [],
    params := Config.builtParams, time := 0, answers := [], delays := [], draws := 0, ticks := 0,
    inbox := [], reply := .none }

end Sys2Proof.Machine
end

