-- ==== Sys2Proof/Machine/Flags.lean ====
section
/-! DEFINITION. Status and code words: ResultOf (spec/00_scope.md R16), the numbers of the result codes (spec/60_exceptions.md
R180), of the close statuses (R13) and of STATE (spec/10_state.md R26), the STATUS register (R33), and the two time comparisons
(R14). -/

namespace Sys2Proof.Machine

/-- The number of a close status (R13). -/
def TxStatus.code : TxStatus → Nat
  | .ok => 0
  | .tooLong => 1
  | .nackAddr => 2
  | .nackData => 3
  | .other => 4

/-- The close status of a raw answer; none where the answer is outside the type (R13, R191). -/
def TxStatus.ofRaw : Nat → Option TxStatus
  | 0 => some .ok
  | 1 => some .tooLong
  | 2 => some .nackAddr
  | 3 => some .nackData
  | 4 => some .other
  | _ => none

/-- ResultOf (R16). -/
def resultOf : TxStatus → ResultCode
  | .ok => .success
  | .tooLong => .dataTooLongToBuffer
  | .nackAddr => .nackOnAddr
  | .nackData => .nackOnData
  | .other => .otherTransmissionError

/-- The number of a result code (R180). -/
def ResultCode.code : ResultCode → BitVec 3
  | .success => 0
  | .dataTooLongToBuffer => 1
  | .nackOnAddr => 2
  | .nackOnData => 3
  | .otherTransmissionError => 4
  | .exceedRomCapacity => 5
  | .unexpectedDataLength => 6
  | .timeout => 7

/-- The number of a sequencer state (R26). -/
def Seq.code : Seq → BitVec 5
  | .idle => 0
  | .wBegin => 1
  | .wAhi => 2
  | .wAlo => 3
  | .wData => 4
  | .wEnd => 5
  | .wSettle => 6
  | .wPmark => 7
  | .wPsleep => 8
  | .pBegin => 9
  | .pAhi => 10
  | .pAlo => 11
  | .pEnd => 12
  | .wPchk => 13
  | .rReq => 14
  | .rMark => 15
  | .rAvail => 16
  | .rByte => 17
  | .rTmark => 18
  | .rTchk => 19
  | .aBegin => 20
  | .aAhi => 21
  | .aAlo => 22
  | .aEnd => 23
  | .fault _ => 31

/-- Whether STATE is FAULT (R27). -/
def Seq.isFault : Seq → Bool
  | .fault _ => true
  | _ => false

/-- Whether a command runs: STATE ≠ IDLE and STATE ≠ FAULT (R186). -/
def Seq.running (q : Seq) : Bool := q != .idle && !q.isFault

/-- STATUS as the host reads it: BUSY in bit 3, RESULT in bits [2:0] (R33). -/
def statusWord (s : State) : BitVec 4 := BitVec.ofBool s.busy ++ s.result.code

/-- elapsed(t1, t0) = t1 − t0 modulo 2^32 (R14). -/
def elapsed (t1 t0 : Millis) : Millis := t1 - t0

/-- Whether more than `limit` milliseconds lie between TMARK and the reading t: strictly more (R105, R134). -/
def timedOut (limit : Nat) (t : Millis) (s : State) : Bool :=
  decide (limit < (elapsed t s.tmark).toNat)

end Sys2Proof.Machine
end

