-- ==== Sys2Proof/Machine/Operands.lean ====
section
/-! DEFINITION. Operand assembly (spec/30_encoding.md R75): the element width (spec/00_scope.md R7), the byte length and the
capacity check (spec/40_write.md R100), the two device offset bytes (spec/20_memory.md R57), BUS, and the layout of typed elements in
the transfer buffer (spec/00_scope.md R8, spec/43_typed.md R159). -/

namespace Sys2Proof.Machine

/-- SIZEOF_F64 in bytes (R5). -/
def sizeofF64 (p : Config.Params) : Nat :=
  match p.sizeofF64 with
  | .four => 4
  | .eight => 8

/-- W(T) (R7, R73). -/
def width (p : Config.Params) : ElemType → Nat
  | .b => 1
  | .u8 => 1
  | .i8 => 1
  | .u16 => 2
  | .i16 => 2
  | .u32 => 4
  | .i32 => 4
  | .f32 => 4
  | .f64 => sizeofF64 p

/-- zext_20(LEN) × W(T): exact, since it fits 20 bits (R30). -/
def byteLength (p : Config.Params) (t : ElemType) (len : Count) : BitVec 20 :=
  BitVec.ofNat 20 (len.toNat * width p t)

/-- The step BYTELEN <- zext_20(LEN) × W(T) (R100, R130). -/
def loadByteLength (t : ElemType) (s : State) : State :=
  { s with bytelen := byteLength s.params t s.len }

/-- The capacity check fails: zext_21(CURSOR) + BYTELEN > CAPACITY, in exact arithmetic (R100, R130). -/
def exceedsCapacity (s : State) : Bool :=
  decide (Config.CAPACITY < s.cursor.toNat + s.bytelen.toNat)

/-- CMD.BUS, the target address of every primitive of the command (R74). -/
def busOf (s : State) : Byte := s.cmd.extractLsb' 8 8

/-- CURSOR[15:8], the first offset byte on the bus (R57). -/
def offsetHigh (s : State) : Byte := s.cursor.extractLsb' 8 8

/-- CURSOR[7:0], the second offset byte on the bus (R57). -/
def offsetLow (s : State) : Byte := s.cursor.extractLsb' 0 8

/-- CURSOR +_16 k (R21). -/
def cursorPlus (s : State) (k : Nat) : Offset := BitVec.ofNat 16 (s.cursor.toNat + k)

/-- The buffer indexes of element k of a typed command (R8, R159). -/
def elementIndexes (p : Config.Params) (t : ElemType) (k : Nat) : List Nat :=
  (List.range (width p t)).map (fun j => k * width p t + j)

/-- The number that bytes stand for in little-endian order. -/
def littleValue : List Byte → Nat
  | [] => 0
  | b :: rest => b.toNat + 256 * littleValue rest

/-- The number that an element's bytes, lowest index first, stand for under HOST_ORDER (R8). The engine never uses it:
claims about the value of a stored element do. -/
def elementValue (order : Config.HostOrder) (bytes : List Byte) : Nat :=
  match order with
  | .little => littleValue bytes
  | .big => littleValue bytes.reverse

end Sys2Proof.Machine
end

