-- ==== Sys2Proof/Machine/Ops.lean ====
section
/-! DEFINITION. The named operations: the transfer buffer (spec/20_memory.md R50 to R53), the environment's answers and TIME
(spec/60_exceptions.md R190 to R192), finish, fault (spec/00_scope.md R11) and the eight primitives (R12, R14). A primitive is
one step: it records its event and lets TIME advance (R17). -/

namespace Sys2Proof.Machine

/-! ### The transfer buffer -/

/-- The byte at index a; an unlisted index reads 0 (log 14). -/
def Memory.read : Memory → Nat → Byte
  | [], _ => 0#8
  | (k, v) :: rest, a => if a = k then v else Memory.read rest a

/-- The buffer with byte b at index a. -/
def Memory.write : Memory → Nat → Byte → Memory
  | [], a, b => if b = 0#8 then [] else [(a, b)]
  | (k, v) :: rest, a, b =>
    if a < k then (if b = 0#8 then (k, v) :: rest else (a, b) :: (k, v) :: rest)
    else if a = k then (if b = 0#8 then rest else (a, b) :: rest)
    else (k, v) :: Memory.write rest a b

/-- Indexes strictly rise from at least lo, and no listed byte is 0. -/
def Memory.wfFrom : Nat → Memory → Bool
  | _, [] => true
  | lo, (k, v) :: rest => decide (lo ≤ k) && v != 0#8 && Memory.wfFrom (k + 1) rest

/-- The canonical form of a buffer. -/
def Memory.wf (m : Memory) : Bool := Memory.wfFrom 0 m

/-- A lent byte array from index i on. -/
def Memory.ofBytesFrom : Nat → List Byte → Memory
  | _, [] => []
  | i, b :: rest =>
    if b = 0#8 then Memory.ofBytesFrom (i + 1) rest else (i, b) :: Memory.ofBytesFrom (i + 1) rest

/-- The buffer that holds a lent byte array, byte 0 first (R185). -/
def Memory.ofBytes (bytes : List Byte) : Memory := Memory.ofBytesFrom 0 bytes

/-! ### The environment -/

/-- The transport's next raw answer: the next listed one, and a free value where none is listed (R12, log 1). -/
def nextAnswer (s : State) : Nat :=
  match s.answers with
  | a :: _ => a
  | [] => Config.freeAnswer s.draws

/-- The state once the next raw answer has been taken. -/
def dropAnswer (s : State) : State :=
  match s.answers with
  | _ :: rest => { s with answers := rest }
  | [] => { s with draws := s.draws + 1 }

/-- The environment's next amount of TIME: the next listed one, and a free value where none is listed (R190, log 2). -/
def nextDelay (s : State) : Nat :=
  match s.delays with
  | d :: _ => d
  | [] => Config.freeDelay s.ticks

/-- TIME advances by k and an amount ≥ 0 that the environment draws (R190 b, c, d; log 2). -/
def advance (k : Nat) (s : State) : State :=
  match s.delays with
  | _ :: rest => { s with time := s.time + k + nextDelay s, delays := rest }
  | [] => { s with time := s.time + k + nextDelay s, ticks := s.ticks + 1 }

/-- The event is recorded in HIST (R35). -/
def record (e : Event) (s : State) : State := { s with hist := s.hist ++ [e] }

/-! ### The end of a command -/

/-- finish(r) (R11, R187). -/
def finish (r : ResultCode) (s : State) : State :=
  { s with result := r, resultValid := true, busy := false, seq := .idle, hist := s.hist ++ [.done r] }

/-- fault(reason) (R11, R27): STATE becomes FAULT and nothing else of the engine changes. It takes the place of the step's
primitive, so no event is recorded (R51; for BAD_ANSWER log 10). -/
def enterFault (reason : EngineFault) (s : State) : State := advance 0 { s with seq := .fault reason }

/-! ### The primitives -/

/-- TxBegin(a) (R12). -/
def txBegin (a : Byte) (s : State) : State := advance 0 (record (.begin a) s)

/-- TxWrite(b) (R12). -/
def txWrite (b : Byte) (s : State) : State := advance 0 (record (.wr b) s)

/-- TxEnd() (R12): the close status goes to the continuation; a raw answer outside TxStatus is fault(BAD_ANSWER) (R191). -/
def txEnd (s : State) (andThen : TxStatus → State → State) : State :=
  match TxStatus.ofRaw (nextAnswer s) with
  | some status => andThen status (advance 0 (record (.endTx status) (dropAnswer s)))
  | none => enterFault .badAnswer (dropAnswer s)

/-- RxRequest(a, n) (R12): the received count, 0 to 255, goes to the continuation; any other raw answer is
fault(BAD_ANSWER) (R191). -/
def rxRequest (a n : Byte) (s : State) (andThen : Byte → State → State) : State :=
  if nextAnswer s ≤ 255 then
    andThen (BitVec.ofNat 8 (nextAnswer s))
      (advance 0 (record (.req a n (BitVec.ofNat 8 (nextAnswer s))) (dropAnswer s)))
  else enterFault .badAnswer (dropAnswer s)

/-- RxAvailable() (R12): a raw answer 0 is false and 1 is true; any other is fault(BAD_ANSWER) (R191). -/
def rxAvailable (s : State) (andThen : Bool → State → State) : State :=
  if nextAnswer s ≤ 1 then
    andThen (nextAnswer s == 1) (advance 0 (record (.avail (nextAnswer s == 1)) (dropAnswer s)))
  else enterFault .badAnswer (dropAnswer s)

/-- RxRead() (R12): the byte goes to the continuation; a raw answer above 255 is fault(BAD_ANSWER) (R191). -/
def rxRead (s : State) (andThen : Byte → State → State) : State :=
  if nextAnswer s ≤ 255 then
    andThen (BitVec.ofNat 8 (nextAnswer s))
      (advance 0 (record (.rd (BitVec.ofNat 8 (nextAnswer s))) (dropAnswer s)))
  else enterFault .badAnswer (dropAnswer s)

/-- What ClkMillis() returns: TIME mod 2^32 (R190 a). -/
def clockReading (s : State) : Millis := BitVec.ofNat 32 s.time

/-- ClkMillis() (R14): the reading is recorded. -/
def clkMillis (s : State) : State := advance 0 (record (.ms (clockReading s)) s)

/-- ClkSleep(k) (R14): TIME advances by at least k. -/
def clkSleep (k : Millis) (s : State) : State := advance k.toNat (record (.sleep k) s)

/-- TMARK <- ClkMillis() (R105, R134). -/
def markTime (s : State) : State := { clkMillis s with tmark := clockReading s }

end Sys2Proof.Machine
end

