-- ==== Sys2Proof/Machine/AddrSequence.lean ====
section
/-! DEFINITION. The address-only sequence A_BEGIN to A_END (spec/41_addr.md R121), which ADDR and READ.T.N share. -/

namespace Sys2Proof.Machine

/-- A_BEGIN (R121). -/
def stepABegin (s : State) : State := { txBegin (busOf s) s with seq := .aAhi }

/-- A_AHI (R121). -/
def stepAAhi (s : State) : State := { txWrite (offsetHigh s) s with seq := .aAlo }

/-- A_ALO (R121). -/
def stepAAlo (s : State) : State := { txWrite (offsetLow s) s with seq := .aEnd }

/-- A_END (R121): the close status is the result. -/
def stepAEnd (s : State) : State := txEnd s fun status t => finish (resultOf status) t

end Sys2Proof.Machine
end

