-- ==== Sys2Proof/Machine/ReadSequence.lean ====
section
/-! DEFINITION. The buffered read sequence (spec/42_read.md R132 to R135). One definition per row of the table of R134. -/

namespace Sys2Proof.Machine

/-- NextReadChunk() (R132). -/
def nextReadChunk (s : State) : State :=
  if s.rem = 0#17 then finish .success s
  else { s with chunk := BitVec.ofNat 8 (min s.params.readCap s.rem.toNat), cidx := 0#8, seq := .rReq }

/-- R_REQ (R133): a count other than CHUNK, short or long, ends the command. -/
def stepRReq (s : State) : State :=
  rxRequest (busOf s) s.chunk s fun m t =>
    if m = s.chunk then { t with seq := .rMark } else finish .unexpectedDataLength t

/-- R_MARK (R134). -/
def stepRMark (s : State) : State := { markTime s with seq := .rAvail }

/-- R_AVAIL (R134). -/
def stepRAvail (s : State) : State :=
  rxAvailable s fun v t => { t with seq := if v then .rByte else .rTchk }

/-- What one received byte changes: BUF, BPTR, CURSOR, REM and CIDX (R134). -/
def byteReceived (b : Byte) (s : State) : State :=
  { s with
    buf := Memory.write s.buf s.bptr.toNat b
    bptr := BitVec.ofNat 17 (s.bptr.toNat + 1)
    cursor := cursorPlus s 1
    rem := BitVec.ofNat 17 (s.rem.toNat - 1)
    cidx := s.cidx + 1#8
    seq := .rTmark }

/-- R_BYTE (R134): one byte into BUF, or fault(BUF_OOB) before any primitive (R51). -/
def stepRByte (s : State) : State :=
  if s.bufLen ≤ s.bptr.toNat then enterFault .bufOob s else rxRead s byteReceived

/-- R_TMARK (R134): the timer restarts on every byte. -/
def stepRTmark (s : State) : State :=
  if s.cidx = s.chunk then nextReadChunk (markTime s) else { markTime s with seq := .rAvail }

/-- R_TCHK (R134, R135). -/
def stepRTchk (s : State) : State :=
  if timedOut Config.READ_TIMEOUT (clockReading s) s then finish .timeout (clkMillis s)
  else { clkMillis s with seq := .rAvail }

end Sys2Proof.Machine
end

