-- ==== Sys2Proof/Machine/WriteSequence.lean ====
section
/-! DEFINITION. The write sequence (spec/40_write.md R101 to R106): the page-write chunker and the completion wait. One
definition per row of the tables of R102 and R105. -/

namespace Sys2Proof.Machine

/-- PAGE − (CURSOR mod PAGE), the bytes to the next page boundary (R101). -/
def bytesToBoundary (s : State) : Nat := Config.PAGE - s.cursor.toNat % Config.PAGE

/-- NextWriteChunk() (R101). -/
def nextWriteChunk (s : State) : State :=
  if s.rem = 0#17 then finish .success s
  else { s with chunk := BitVec.ofNat 8 (min (bytesToBoundary s) s.rem.toNat), cidx := 0#8, seq := .wBegin }

/-- W_BEGIN (R102). -/
def stepWBegin (s : State) : State := { txBegin (busOf s) s with seq := .wAhi }

/-- W_AHI (R102). -/
def stepWAhi (s : State) : State := { txWrite (offsetHigh s) s with seq := .wAlo }

/-- W_ALO (R102). -/
def stepWAlo (s : State) : State := { txWrite (offsetLow s) s with seq := .wData }

/-- The index W_DATA reads: BPTR + CIDX (R50, R102). -/
def writeIndex (s : State) : Nat := s.bptr.toNat + s.cidx.toNat

/-- W_DATA (R102): one byte of BUF, or fault(BUF_OOB) before any primitive (R51). -/
def stepWData (s : State) : State :=
  if s.bufLen ≤ writeIndex s then enterFault .bufOob s
  else
    { txWrite (Memory.read s.buf (writeIndex s)) s with
      cidx := s.cidx + 1#8
      seq := if s.cidx + 1#8 < s.chunk then .wData else .wEnd }

/-- What a chunk that closed OK changes: BPTR, CURSOR, REM, and the completion wait that follows (R103, R104). -/
def chunkWritten (s : State) : State :=
  { s with
    bptr := BitVec.ofNat 17 (s.bptr.toNat + s.chunk.toNat)
    cursor := cursorPlus s s.chunk.toNat
    rem := BitVec.ofNat 17 (s.rem.toNat - s.chunk.toNat)
    seq := if s.settle = 0#32 then .wPmark else .wSettle }

/-- W_END (R103). -/
def stepWEnd (s : State) : State :=
  txEnd s fun status t => if status = .ok then chunkWritten t else finish (resultOf status) t

/-- W_SETTLE: ClkSleep(SETTLE), then the next chunk (R106). -/
def stepWSettle (s : State) : State := nextWriteChunk (clkSleep s.settle s)

/-- W_PMARK (R105). -/
def stepWPmark (s : State) : State := { markTime s with seq := .wPsleep }

/-- W_PSLEEP (R105). -/
def stepWPsleep (s : State) : State := { clkSleep Config.POLL_INTERVAL s with seq := .pBegin }

/-- P_BEGIN (R105). -/
def stepPBegin (s : State) : State := { txBegin (busOf s) s with seq := .pAhi }

/-- P_AHI (R105). -/
def stepPAhi (s : State) : State := { txWrite (offsetHigh s) s with seq := .pAlo }

/-- P_ALO (R105). -/
def stepPAlo (s : State) : State := { txWrite (offsetLow s) s with seq := .pEnd }

/-- P_END (R105): only OK ends the poll; any other status is "not ready yet" and never a result. -/
def stepPEnd (s : State) : State :=
  txEnd s fun status t => if status = .ok then nextWriteChunk t else { t with seq := .wPchk }

/-- W_PCHK (R105). -/
def stepWPchk (s : State) : State :=
  if timedOut Config.POLL_TIMEOUT (clockReading s) s then finish .timeout (clkMillis s)
  else { clkMillis s with seq := .wPsleep }

end Sys2Proof.Machine
end

