-- ==== Sys2Proof/Machine/Sequencer.lean ====
section
/-! DEFINITION. One step of the sequencer: STATE names the primitive the engine performs (spec/10_state.md R26). -/

namespace Sys2Proof.Machine

/-- The host's "no move in this step" is used up, where it is the next entry of the inbox. -/
def dropPass (s : State) : State :=
  match s.inbox with
  | .pass :: rest => { s with inbox := rest }
  | _ => s

/-- The primitive of each running state (R26); IDLE waits, so only TIME advances (log 16), and FAULT changes nothing. -/
def perform (s : State) : State :=
  match s.seq with
  | .idle => advance 0 s
  | .wBegin => stepWBegin s
  | .wAhi => stepWAhi s
  | .wAlo => stepWAlo s
  | .wData => stepWData s
  | .wEnd => stepWEnd s
  | .wSettle => stepWSettle s
  | .wPmark => stepWPmark s
  | .wPsleep => stepWPsleep s
  | .pBegin => stepPBegin s
  | .pAhi => stepPAhi s
  | .pAlo => stepPAlo s
  | .pEnd => stepPEnd s
  | .wPchk => stepWPchk s
  | .rReq => stepRReq s
  | .rMark => stepRMark s
  | .rAvail => stepRAvail s
  | .rByte => stepRByte s
  | .rTmark => stepRTmark s
  | .rTchk => stepRTchk s
  | .aBegin => stepABegin s
  | .aAhi => stepAAhi s
  | .aAlo => stepAAlo s
  | .aEnd => stepAEnd s
  | .fault _ => advance 0 s

/-- A step of the engine without a host move. No step leaves FAULT (R27): where the host passes, time goes by; where no host move
is to come, the machine has stopped (spec/93_implementation_defined.md U17). -/
def sequencerStep (s : State) : Host.Outcome State Fault Refusal :=
  match s.seq, s.inbox with
  | .fault reason, [] => .fault (.engineStopped reason)
  | _, _ => .next (perform (dropPass s))

end Sys2Proof.Machine
end

