-- ==== Sys2Proof/Machine/Issue.lean ====
section
/-! DEFINITION. Command issue (spec/60_exceptions.md R185, R186): the refusals, the acceptance, and the issue pseudocode of the
three families (spec/40_write.md R100, spec/41_addr.md R120, spec/42_read.md R130). -/

namespace Sys2Proof.Machine

/-- How a command uses the lent buffer (R75): WRITE.T and READ.T need one, READ.T.N takes none, ADDR does not look at it. -/
inductive BufferUse where
  | needed | null | unused
deriving DecidableEq, Repr

/-- The Issue that lands in this step, if any. A synchronous call waits until no command runs (R187). -/
def fetch (s : State) : Option IssueReq :=
  match s.inbox with
  | .issue r :: _ => some r
  | .call r :: _ => if s.seq.running then none else some r
  | _ => none

/-- One reason, where its condition holds. -/
def reasonIf (p : Bool) (reason : RefuseReason) : List RefuseReason := if p then [reason] else []

/-- Every reason of R186 that holds for a request; the issue is refused when there is one. The spec gives no order among them, so
all are kept (log 7). -/
def refuseReasons (legal : Bool) (use : BufferUse) (r : IssueReq) (s : State) : List RefuseReason :=
  reasonIf (!legal) .reservedEncoding ++ reasonIf s.seq.running .busy ++ reasonIf s.seq.isFault .faulted
    ++ reasonIf (r.cur.isNone && !s.cursorLoaded) .noCursor
    ++ reasonIf (use == .needed && r.buf.isNone) .noBuffer

/-- refuse(reason) (R186): Refused(cmd) is recorded and no register, buffer byte or STATUS field changes. The reasons go to the
host. -/
def refuse (word : CmdWord) (reasons : List RefuseReason) (s : State) : State :=
  advance 0 { s with hist := s.hist ++ [.refused word], reply := .refused reasons, inbox := s.inbox.tail }

/-- The bytes lent for the command: none where N = 1 or the host lends no buffer (R25, R185). -/
def lentBytes (use : BufferUse) (r : IssueReq) : List Byte :=
  match use with
  | .null => []
  | _ => (r.buf.map Subtype.val).getD []

/-- The acceptance of an Issue (R185), and BPTR <- 0 (R29, R181; log 9). -/
def accept (word : CmdWord) (use : BufferUse) (r : IssueReq) (s : State) : State :=
  { s with
    cmd := word
    cursor := r.cur.getD s.cursor
    cursorLoaded := true
    len := r.len
    settle := r.settle
    buf := Memory.ofBytes (lentBytes use r)
    bufLen := (lentBytes use r).length
    bptr := 0#17
    busy := true
    hist := s.hist ++ [.issue word r.cur r.len r.settle (lentBytes use r).length]
    reply := .accepted
    inbox := s.inbox.tail }

/-- The issue pseudocode of WRITE.T (R100). -/
def startWrite (t : ElemType) (s : State) : State :=
  let s := loadByteLength t s
  if exceedsCapacity s then finish .exceedRomCapacity s
  else nextWriteChunk { s with rem := s.bytelen.setWidth 17, bptr := 0#17 }

/-- The issue pseudocode of READ.T, N = 0 (R130). -/
def startRead (t : ElemType) (s : State) : State :=
  let s := loadByteLength t s
  if exceedsCapacity s then finish .exceedRomCapacity s
  else nextReadChunk { s with rem := s.bytelen.setWidth 17, bptr := 0#17 }

/-- The issue pseudocode of READ.T.N: CURSOR advances before the transaction (R130, R136). -/
def startSeek (t : ElemType) (s : State) : State :=
  let s := loadByteLength t s
  if exceedsCapacity s then finish .exceedRomCapacity s
  else { s with bptr := 0#17, cursor := cursorPlus s s.bytelen.toNat, seq := .aBegin }

/-- The issue pseudocode of ADDR: no capacity check (R120). -/
def startAddr (s : State) : State := { s with bptr := 0#17, seq := .aBegin }

/-- One step of a command: its issue step where an Issue lands, and otherwise the next step of its sequence (R17). The issue step
takes no primitive; TIME may advance in it as in every step (R190 d). -/
def command (word : CmdWord) (use : BufferUse) (start : State → State) (s : State) :
    Host.Outcome State Fault Refusal :=
  match fetch s with
  | some r =>
    match refuseReasons true use r s with
    | [] => .next (advance 0 (start (accept word use r s)))
    | reasons => .next (refuse word reasons s)
  | none => sequencerStep s

end Sys2Proof.Machine
end

