-- ==== Sys2Proof/Machine/Addr.lean ====
section
/-! DEFINITION. The ADDR command (spec/41_addr.md R120): the issue step and then the address-only sequence of R121. -/

namespace Sys2Proof.Machine

/-- ADDR (R120). -/
def execAddr (bus : Byte) (s : State) : Host.Outcome State Fault Refusal :=
  command (encode (.addr bus)) .unused startAddr s

end Sys2Proof.Machine
end

