-- ==== Sys2Proof/Machine/Read.lean ====
section
/-! DEFINITION. The nine READ.T commands with a buffer (spec/42_read.md R137, spec/43_typed.md R160 to R167): the issue step of R130 and then the
buffered read sequence of R132 to R135. -/

namespace Sys2Proof.Machine

/-- READ.B (R137). -/
def execReadB (bus : Byte) (s : State) : Host.Outcome State Fault Refusal :=
  command (encode (.readB bus)) .needed (startRead .b) s

/-- READ.U8 (R160). -/
def execReadU8 (bus : Byte) (s : State) : Host.Outcome State Fault Refusal :=
  command (encode (.readU8 bus)) .needed (startRead .u8) s

/-- READ.I8 (R161). -/
def execReadI8 (bus : Byte) (s : State) : Host.Outcome State Fault Refusal :=
  command (encode (.readI8 bus)) .needed (startRead .i8) s

/-- READ.U16 (R162). -/
def execReadU16 (bus : Byte) (s : State) : Host.Outcome State Fault Refusal :=
  command (encode (.readU16 bus)) .needed (startRead .u16) s

/-- READ.I16 (R163). -/
def execReadI16 (bus : Byte) (s : State) : Host.Outcome State Fault Refusal :=
  command (encode (.readI16 bus)) .needed (startRead .i16) s

/-- READ.U32 (R164). -/
def execReadU32 (bus : Byte) (s : State) : Host.Outcome State Fault Refusal :=
  command (encode (.readU32 bus)) .needed (startRead .u32) s

/-- READ.I32 (R165). -/
def execReadI32 (bus : Byte) (s : State) : Host.Outcome State Fault Refusal :=
  command (encode (.readI32 bus)) .needed (startRead .i32) s

/-- READ.F32 (R166). -/
def execReadF32 (bus : Byte) (s : State) : Host.Outcome State Fault Refusal :=
  command (encode (.readF32 bus)) .needed (startRead .f32) s

/-- READ.F64 (R167). -/
def execReadF64 (bus : Byte) (s : State) : Host.Outcome State Fault Refusal :=
  command (encode (.readF64 bus)) .needed (startRead .f64) s

end Sys2Proof.Machine
end

