-- ==== Sys2Proof/Machine/Seek.lean ====
section
/-! DEFINITION. The nine READ.T.N commands, the null-buffer seek (spec/42_read.md R138, spec/43_typed.md R170 to R177): the issue step of R130 and
then the address-only sequence (R136). -/

namespace Sys2Proof.Machine

/-- READ.B.N (R138). -/
def execReadBN (bus : Byte) (s : State) : Host.Outcome State Fault Refusal :=
  command (encode (.readBN bus)) .null (startSeek .b) s

/-- READ.U8.N (R170). -/
def execReadU8N (bus : Byte) (s : State) : Host.Outcome State Fault Refusal :=
  command (encode (.readU8N bus)) .null (startSeek .u8) s

/-- READ.I8.N (R171). -/
def execReadI8N (bus : Byte) (s : State) : Host.Outcome State Fault Refusal :=
  command (encode (.readI8N bus)) .null (startSeek .i8) s

/-- READ.U16.N (R172). -/
def execReadU16N (bus : Byte) (s : State) : Host.Outcome State Fault Refusal :=
  command (encode (.readU16N bus)) .null (startSeek .u16) s

/-- READ.I16.N (R173). -/
def execReadI16N (bus : Byte) (s : State) : Host.Outcome State Fault Refusal :=
  command (encode (.readI16N bus)) .null (startSeek .i16) s

/-- READ.U32.N (R174). -/
def execReadU32N (bus : Byte) (s : State) : Host.Outcome State Fault Refusal :=
  command (encode (.readU32N bus)) .null (startSeek .u32) s

/-- READ.I32.N (R175). -/
def execReadI32N (bus : Byte) (s : State) : Host.Outcome State Fault Refusal :=
  command (encode (.readI32N bus)) .null (startSeek .i32) s

/-- READ.F32.N (R176). -/
def execReadF32N (bus : Byte) (s : State) : Host.Outcome State Fault Refusal :=
  command (encode (.readF32N bus)) .null (startSeek .f32) s

/-- READ.F64.N (R177). -/
def execReadF64N (bus : Byte) (s : State) : Host.Outcome State Fault Refusal :=
  command (encode (.readF64N bus)) .null (startSeek .f64) s

end Sys2Proof.Machine
end

