-- ==== Sys2Proof/Machine/Write.lean ====
section
/-! DEFINITION. The nine WRITE.T commands (spec/40_write.md R109, spec/43_typed.md R150 to R157): the issue step of R100 and then the write
sequence of R101 to R106. -/

namespace Sys2Proof.Machine

/-- WRITE.B (R109). -/
def execWriteB (bus : Byte) (s : State) : Host.Outcome State Fault Refusal :=
  command (encode (.writeB bus)) .needed (startWrite .b) s

/-- WRITE.U8 (R150). -/
def execWriteU8 (bus : Byte) (s : State) : Host.Outcome State Fault Refusal :=
  command (encode (.writeU8 bus)) .needed (startWrite .u8) s

/-- WRITE.I8 (R151). -/
def execWriteI8 (bus : Byte) (s : State) : Host.Outcome State Fault Refusal :=
  command (encode (.writeI8 bus)) .needed (startWrite .i8) s

/-- WRITE.U16 (R152). -/
def execWriteU16 (bus : Byte) (s : State) : Host.Outcome State Fault Refusal :=
  command (encode (.writeU16 bus)) .needed (startWrite .u16) s

/-- WRITE.I16 (R153). -/
def execWriteI16 (bus : Byte) (s : State) : Host.Outcome State Fault Refusal :=
  command (encode (.writeI16 bus)) .needed (startWrite .i16) s

/-- WRITE.U32 (R154). -/
def execWriteU32 (bus : Byte) (s : State) : Host.Outcome State Fault Refusal :=
  command (encode (.writeU32 bus)) .needed (startWrite .u32) s

/-- WRITE.I32 (R155). -/
def execWriteI32 (bus : Byte) (s : State) : Host.Outcome State Fault Refusal :=
  command (encode (.writeI32 bus)) .needed (startWrite .i32) s

/-- WRITE.F32 (R156). -/
def execWriteF32 (bus : Byte) (s : State) : Host.Outcome State Fault Refusal :=
  command (encode (.writeF32 bus)) .needed (startWrite .f32) s

/-- WRITE.F64 (R157). -/
def execWriteF64 (bus : Byte) (s : State) : Host.Outcome State Fault Refusal :=
  command (encode (.writeF64 bus)) .needed (startWrite .f64) s

end Sys2Proof.Machine
end

