-- ==== Sys2Proof/Machine/Dispatch.lean ====
section
/-! DEFINITION. One arm per command (spec/opcode_table.json). -/

namespace Sys2Proof.Machine

def exec (i : Instr) (s : State) : Host.Outcome State Fault Refusal :=
  match i with
  | .writeB bus => Sys2Proof.Machine.execWriteB bus s
  | .addr bus => Sys2Proof.Machine.execAddr bus s
  | .readB bus => Sys2Proof.Machine.execReadB bus s
  | .readBN bus => Sys2Proof.Machine.execReadBN bus s
  | .writeU8 bus => Sys2Proof.Machine.execWriteU8 bus s
  | .writeI8 bus => Sys2Proof.Machine.execWriteI8 bus s
  | .writeU16 bus => Sys2Proof.Machine.execWriteU16 bus s
  | .writeI16 bus => Sys2Proof.Machine.execWriteI16 bus s
  | .writeU32 bus => Sys2Proof.Machine.execWriteU32 bus s
  | .writeI32 bus => Sys2Proof.Machine.execWriteI32 bus s
  | .writeF32 bus => Sys2Proof.Machine.execWriteF32 bus s
  | .writeF64 bus => Sys2Proof.Machine.execWriteF64 bus s
  | .readU8 bus => Sys2Proof.Machine.execReadU8 bus s
  | .readI8 bus => Sys2Proof.Machine.execReadI8 bus s
  | .readU16 bus => Sys2Proof.Machine.execReadU16 bus s
  | .readI16 bus => Sys2Proof.Machine.execReadI16 bus s
  | .readU32 bus => Sys2Proof.Machine.execReadU32 bus s
  | .readI32 bus => Sys2Proof.Machine.execReadI32 bus s
  | .readF32 bus => Sys2Proof.Machine.execReadF32 bus s
  | .readF64 bus => Sys2Proof.Machine.execReadF64 bus s
  | .readU8N bus => Sys2Proof.Machine.execReadU8N bus s
  | .readI8N bus => Sys2Proof.Machine.execReadI8N bus s
  | .readU16N bus => Sys2Proof.Machine.execReadU16N bus s
  | .readI16N bus => Sys2Proof.Machine.execReadI16N bus s
  | .readU32N bus => Sys2Proof.Machine.execReadU32N bus s
  | .readI32N bus => Sys2Proof.Machine.execReadI32N bus s
  | .readF32N bus => Sys2Proof.Machine.execReadF32N bus s
  | .readF64N bus => Sys2Proof.Machine.execReadF64N bus s

end Sys2Proof.Machine
end

