-- ==== Sys2Proof/Machine/HostPort.lean ====
section
/-! DEFINITION. What the host can do in a step, and which of it happens next: reset (spec/70_reset_and_hazards.md R200, R201), reads
of registers (spec/60_exceptions.md R187, R189; spec/10_state.md R36), and the command a step runs (R185). -/

namespace Sys2Proof.Machine

/-- Reset (R200, R201): the engine is as after State.reset. TIME, the answers and moves to come and the parameters are no engine
state and stay (R37, log 19). -/
def hostReset (s : State) : State :=
  advance 0
    { State.reset with
      params := s.params, time := s.time, answers := s.answers, delays := s.delays, draws := s.draws,
      ticks := s.ticks,
      inbox := s.inbox.tail }

/-- The host is answered the value n. -/
def hostAnswered (n : Nat) (s : State) : State :=
  advance 0 { s with reply := .value n, inbox := s.inbox.tail }

/-- A read of a register that holds a value or, where the spec faults the read of one that holds none, does not
(R36; 92_eei_decisions.md D16). -/
def readValue (reg : HostReg) (hasValue : Bool) (n : Nat) (s : State) : Host.Outcome State Fault Refusal :=
  if hasValue then .next (hostAnswered n s) else .fault (.registerHasNoValue reg)

/-- A host read (R33, R36, R187). STATUS.BUSY may be read at any time; STATUS with its RESULT once RESULT holds a value; CURSOR, BPTR
and BUF between commands only (R187, R189). BPTR is answered as it stands, also before the first command (log 4). -/
def hostRead (reg : HostReg) (s : State) : Host.Outcome State Fault Refusal :=
  match reg with
  | .status => readValue reg s.resultValid (statusWord s).toNat s
  | .busy => .next (hostAnswered s.busy.toNat s)
  | .cursor =>
    if s.busy then .fault (.hostTouchedWhileBusy reg) else readValue reg s.cursorLoaded s.cursor.toNat s
  | .bptr =>
    if s.busy then .fault (.hostTouchedWhileBusy reg) else .next (hostAnswered s.bptr.toNat s)
  | .bufByte i =>
    if s.busy then .fault (.hostTouchedWhileBusy reg)
    else if i < s.bufLen then .next (hostAnswered (Memory.read s.buf i).toNat s)
    else .fault (.hostReadOutsideBuffer i)

/-- What a step does. -/
inductive Activity where
  | hostReset
  | hostRead (reg : HostReg)
  /-- A step of this command: its issue step, or the next step of its running sequence. -/
  | command (i : Instr)
  /-- An Issue whose word is reserved lands (R78). -/
  | reserved (r : IssueReq)
  /-- No command is issued or runs. -/
  | sequencer
deriving DecidableEq, Repr

/-- The running command, decoded from CMD. -/
def runningCommand (s : State) : Activity :=
  if s.seq.running then
    match decode s.cmd with
    | some i => .command i
    | none => .sequencer
  else .sequencer

/-- The next activity: the host's move where it is a reset, a read or an Issue that lands, and otherwise the running command. -/
def nextActivity (s : State) : Activity :=
  match s.inbox with
  | .reset :: _ => .hostReset
  | .read reg :: _ => .hostRead reg
  | _ =>
    match fetch s with
    | some r =>
      match decode r.cmd with
      | some i => .command i
      | none => .reserved r
    | none => runningCommand s

/-- A reserved word is refused at issue (R78, R186). -/
def refuseReserved (r : IssueReq) (s : State) : State :=
  refuse r.cmd (refuseReasons false .unused r s) s

/-- The state with an Issue of this command word as the host's next move. The operands are zeros: CURSOR 0, LEN 0, SETTLE 0 and an
empty buffer (log 8). -/
def placeIssue (s : State) (nbits w : Nat) : State :=
  { s with
    inbox :=
      .issue { cmd := BitVec.ofNat 16 (w % 2 ^ nbits), cur := some 0, len := 0, settle := 0, buf := some ⟨[], rfl⟩ } :: s.inbox }

end Sys2Proof.Machine
end

