-- ==== Sys2Proof/Machine/Step.lean ====
section
/-! DEFINITION. One step of the machine (spec/00_scope.md R17): a host move, or a step of a command, or of the sequencer. -/

namespace Sys2Proof.Machine

/-- One step. -/
def step (s : State) : Host.Outcome State Fault Refusal :=
  match nextActivity s with
  | .hostReset => .next (hostReset s)
  | .hostRead reg => hostRead reg s
  | .command i => exec i s
  | .reserved r => .next (refuseReserved r s)
  | .sequencer => sequencerStep s

/-- s with an Issue of the word as the host's next move: the engine fetches no instruction, its commands are issued to it (R1,
R185; log 8). -/
def State.withFetchWord (s : State) (nbits w : Nat) : State := placeIssue s nbits w

end Sys2Proof.Machine
end

