-- ==== Sys2Proof/Safety.lean ====
section
/-! DEFINITION. The terms claims are made in: the invariants of the engine, the host's duties, and the parts of a run a claim
names (spec/10_state.md R26 to R35, spec/40_write.md R108, spec/42_read.md R140, spec/70_reset_and_hazards.md R206). -/

namespace Sys2Proof.Safety

open Sys2Proof.Machine

/-! ### The sequencer states by command (the last column of R26) -/

/-- A data chunk is being sent: W_BEGIN to W_END. -/
def inDataChunk : Seq → Bool
  | .wBegin | .wAhi | .wAlo | .wData | .wEnd => true
  | _ => false

/-- The completion wait of a written chunk with SETTLE = 0: W_PMARK to W_PCHK. -/
def inPoll : Seq → Bool
  | .wPmark | .wPsleep | .pBegin | .pAhi | .pAlo | .pEnd | .wPchk => true
  | _ => false

/-- A WRITE.T runs. -/
def inWrite (q : Seq) : Bool := inDataChunk q || inPoll q || q == .wSettle

/-- A READ.T with N = 0 runs. -/
def inRead : Seq → Bool
  | .rReq | .rMark | .rAvail | .rByte | .rTmark | .rTchk => true
  | _ => false

/-- ADDR or READ.T.N runs. -/
def inAddr : Seq → Bool
  | .aBegin | .aAhi | .aAlo | .aEnd => true
  | _ => false

/-! ### What the host does in a step -/

/-- No reset, read or Issue of the host lands in a step taken while a command runs: the host makes no move, or waits in a
synchronous call (R187). -/
def hostQuiet (s : State) : Bool :=
  match s.inbox with
  | [] => true
  | .pass :: _ => true
  | .call _ :: _ => true
  | _ => false

/-- How a command uses the lent buffer (R75). -/
def useOf : Instr → BufferUse
  | .writeB _ => .needed
  | .addr _ => .unused
  | .readB _ => .needed
  | .readBN _ => .null
  | .writeU8 _ => .needed
  | .writeI8 _ => .needed
  | .writeU16 _ => .needed
  | .writeI16 _ => .needed
  | .writeU32 _ => .needed
  | .writeI32 _ => .needed
  | .writeF32 _ => .needed
  | .writeF64 _ => .needed
  | .readU8 _ => .needed
  | .readI8 _ => .needed
  | .readU16 _ => .needed
  | .readI16 _ => .needed
  | .readU32 _ => .needed
  | .readI32 _ => .needed
  | .readF32 _ => .needed
  | .readF64 _ => .needed
  | .readU8N _ => .null
  | .readI8N _ => .null
  | .readU16N _ => .null
  | .readI16N _ => .null
  | .readU32N _ => .null
  | .readI32N _ => .null
  | .readF32N _ => .null
  | .readF64N _ => .null

/-- Only synchronous calls are to come: each waits until no command runs (R187). -/
def onlyCalls : List HostMove → Bool
  | [] => true
  | .call _ :: rest => onlyCalls rest
  | _ => false

/-- An Issue r lands and R186 refuses nothing about a command that uses the buffer so. -/
def Accepted (use : BufferUse) (r : IssueReq) (s : State) : Prop :=
  fetch s = some r ∧ s.seq = .idle ∧ (r.cur.isSome = true ∨ s.cursorLoaded = true)
    ∧ (use = .needed → r.buf.isSome = true)

/-- The CURSOR an Issue leaves in the register (R185). -/
def issuedCursor (r : IssueReq) (s : State) : Offset := r.cur.getD s.cursor

/-- LEN × W(T) as a natural number (R30). -/
def issuedLength (t : ElemType) (r : IssueReq) (s : State) : Nat := r.len.toNat * width s.params t

/-- A bus event (R12). -/
def isBusEvent : Event → Bool
  | .begin _ | .wr _ | .endTx _ | .req .. | .avail _ | .rd _ => true
  | _ => false

/-- The bus events of a history, in order. -/
def busEvents (hist : List Event) : List Event := hist.filter isBusEvent

/-- The start of a transaction that sends the device offset c, high byte first (R57). -/
def offsetEvents (bus : Byte) (c : Offset) : List Event :=
  [.begin bus, .wr (c.extractLsb' 8 8), .wr (c.extractLsb' 0 8)]

/-- By how many milliseconds the sleeps among some events must advance TIME (R190 c). -/
def slept (events : List Event) : Nat :=
  (events.map fun e =>
    match e with
    | .sleep k => k.toNat
    | _ => 0).sum

/-- An event without the byte a Wr carries. -/
def eraseData : Event → Event
  | .wr _ => .wr 0#8
  | e => e

/-! ### What a step leaves -/

/-- The command finished with r after the events of the step (R11, R187). -/
def Finished (r : ResultCode) (events : List Event) (s t : State) : Prop :=
  t.seq = .idle ∧ t.busy = false ∧ t.result = r ∧ t.resultValid = true ∧ t.hist = s.hist ++ events ++ [.done r]

/-- The step recorded the events and the command goes on in state q. -/
def GoesOn (q : Seq) (events : List Event) (s t : State) : Prop :=
  t.seq = q ∧ t.busy = s.busy ∧ t.result = s.result ∧ t.resultValid = s.resultValid ∧ t.hist = s.hist ++ events

/-- What NextWriteChunk() leaves of a state with these CURSOR and REM (R101). -/
def WriteContinues (cursor rem : Nat) (events : List Event) (s t : State) : Prop :=
  if rem = 0 then Finished .success events s t
  else
    GoesOn .wBegin events s t
      ∧ t.chunk.toNat = min (Config.PAGE - cursor % Config.PAGE) rem ∧ t.cidx.toNat = 0

/-- What NextReadChunk() leaves of a state with this REM (R132). -/
def ReadContinues (rem : Nat) (events : List Event) (s t : State) : Prop :=
  if rem = 0 then Finished .success events s t
  else GoesOn .rReq events s t ∧ t.chunk.toNat = min s.params.readCap rem ∧ t.cidx.toNat = 0

/-- The operand registers, the parameters and the answer to the host are as before. -/
def KeepsOperands (s t : State) : Prop :=
  t.len = s.len ∧ t.settle = s.settle ∧ t.cmd = s.cmd ∧ t.cursorLoaded = s.cursorLoaded ∧ t.bytelen = s.bytelen
    ∧ t.bufLen = s.bufLen ∧ t.params = s.params ∧ t.reply = s.reply

/-- CURSOR, REM and BPTR are as before. -/
def KeepsProgress (s t : State) : Prop := t.cursor = s.cursor ∧ t.rem = s.rem ∧ t.bptr = s.bptr

/-- CHUNK, CIDX and TMARK are as before. -/
def KeepsChunk (s t : State) : Prop := t.chunk = s.chunk ∧ t.cidx = s.cidx ∧ t.tmark = s.tmark

/-- STATUS is as before. -/
def KeepsStatus (s t : State) : Prop := t.result = s.result ∧ t.resultValid = s.resultValid ∧ t.busy = s.busy

/-- Every byte of the transfer buffer reads as before. -/
def KeepsBuffer (s t : State) : Prop :=
  t.bufLen = s.bufLen ∧ ∀ a, Memory.read t.buf a = Memory.read s.buf a

/-- Two states that differ in the bytes of the transfer buffer and in the bytes HIST records as written, and in nothing else. -/
def SameButData (s s' : State) : Prop :=
  s' = { s with buf := s'.buf, hist := s'.hist } ∧ s'.hist.map eraseData = s.hist.map eraseData

/-! ### Invariants -/

/-- The buffer is canonical and holds no byte at or above BUFLEN, and BUFLEN is below 2^20 (R25, R50). -/
def BufferInv (s : State) : Prop :=
  Memory.wf s.buf = true ∧ (∀ cell ∈ s.buf, cell.1 < s.bufLen) ∧ s.bufLen < 2 ^ 20

/-- BUSY is 1 exactly when STATE is not IDLE (R27, R33), and then the operand registers hold values (R185). -/
def StatusInv (s : State) : Prop :=
  (s.busy = true ↔ s.seq ≠ .idle) ∧ (s.busy = true → s.cursorLoaded = true)

/-- While a command runs, CMD is a legal word of a command that uses the state (R26, R71, R72). -/
def CommandInv (s : State) : Prop :=
  (s.seq.running = true → WellFormed.commandWord s.cmd = true)
    ∧ (inWrite s.seq = true → s.cmd.extractLsb' 0 4 = 1#4)
    ∧ (inRead s.seq = true → s.cmd.extractLsb' 0 4 = 2#4)
    ∧ (inAddr s.seq = true → s.cmd.extractLsb' 0 4 = 3#4 ∨ s.cmd.extractLsb' 0 4 = 10#4)

/-- The bytes moved and the bytes to move make up BYTELEN, which passed the capacity check, and the range to move ends within the
device (R28, R29, R54). -/
def ProgressInv (s : State) : Prop :=
  s.bptr.toNat + s.rem.toNat = s.bytelen.toNat ∧ s.bytelen.toNat ≤ Config.CAPACITY
    ∧ s.cursor.toNat + s.rem.toNat ≤ Config.CAPACITY

/-- A data chunk has the size of R101, and CIDX counts the bytes of it that went out (R31). -/
def DataChunkInv (s : State) : Prop :=
  0 < s.rem.toNat ∧ s.chunk.toNat = min (bytesToBoundary s) s.rem.toNat
    ∧ (s.seq = .wBegin ∨ s.seq = .wAhi ∨ s.seq = .wAlo → s.cidx.toNat = 0)
    ∧ (s.seq = .wData → s.cidx.toNat < s.chunk.toNat)
    ∧ (s.seq = .wEnd → s.cidx.toNat = s.chunk.toNat)

/-- In the completion wait the next chunk, if any, starts on a page boundary (R108 c), and SETTLE has chosen the wait (R104). -/
def WaitInv (s : State) : Prop :=
  (s.rem.toNat = 0 ∨ s.cursor.toNat % Config.PAGE = 0)
    ∧ (s.seq = .wSettle → s.settle ≠ 0#32) ∧ (inPoll s.seq = true → s.settle = 0#32)

/-- A read chunk has the size of R132, CIDX counts the bytes of it that were stored, and whole chunks of READ_CAP bytes came
before it (R140 b, d). -/
def ReadChunkInv (s : State) : Prop :=
  0 < s.rem.toNat + s.cidx.toNat ∧ s.chunk.toNat = min s.params.readCap (s.rem.toNat + s.cidx.toNat)
    ∧ s.cidx.toNat ≤ s.bptr.toNat ∧ (s.bptr.toNat - s.cidx.toNat) % s.params.readCap = 0
    ∧ (s.seq = .rReq ∨ s.seq = .rMark → s.cidx.toNat = 0)
    ∧ (s.seq = .rAvail ∨ s.seq = .rByte ∨ s.seq = .rTchk → s.cidx.toNat < s.chunk.toNat)
    ∧ (s.seq = .rTmark → 0 < s.cidx.toNat ∧ s.cidx.toNat ≤ s.chunk.toNat)

/-- What holds of the working registers in each sequencer state. -/
def SequenceInv (s : State) : Prop :=
  (inWrite s.seq = true → ProgressInv s)
    ∧ (inDataChunk s.seq = true → DataChunkInv s)
    ∧ (inPoll s.seq = true ∨ s.seq = .wSettle → WaitInv s)
    ∧ (inRead s.seq = true → ProgressInv s ∧ ReadChunkInv s)
    ∧ (inAddr s.seq = true → s.bptr = 0#17)

/-- The engine's invariant. -/
def EngineInv (s : State) : Prop := BufferInv s ∧ StatusInv s ∧ CommandInv s ∧ SequenceInv s

/-- What the open transaction has put on the bus: Begin(BUS), then CURSOR high byte first, then, in a data chunk, the CIDX bytes of BUF
from index BPTR on (R102, R105, R121, R52, R57). -/
def TransactionInv (s : State) : Prop :=
  (s.seq = .wAhi ∨ s.seq = .pAhi ∨ s.seq = .aAhi → [.begin (busOf s)] <:+ busEvents s.hist)
    ∧ (s.seq = .wAlo ∨ s.seq = .pAlo ∨ s.seq = .aAlo →
        [.begin (busOf s), .wr (offsetHigh s)] <:+ busEvents s.hist)
    ∧ (s.seq = .pEnd ∨ s.seq = .aEnd → offsetEvents (busOf s) s.cursor <:+ busEvents s.hist)
    ∧ (s.seq = .wData ∨ s.seq = .wEnd →
        offsetEvents (busOf s) s.cursor
            ++ (List.range s.cidx.toNat).map (fun j => .wr (Memory.read s.buf (s.bptr.toNat + j)))
          <:+ busEvents s.hist)

/-! ### HIST -/

/-- The result code of an event Done(r). -/
def doneCode : Event → Option ResultCode
  | .done r => some r
  | _ => none

/-- The result code of the last Done in a history. -/
def lastDone (hist : List Event) : Option ResultCode := (hist.filterMap doneCode).getLast?

/-- RESULT holds the code of the last command that finished, and holds a value once one did (R33, R36). -/
def ResultInv (s : State) : Prop := lastDone s.hist = if s.resultValid then some s.result else none

/-- Whether an event is an accepted Issue. -/
def isIssue : Event → Bool
  | .issue .. => true
  | _ => false

/-- Whether an event is a Done. -/
def isDone (e : Event) : Bool := (doneCode e).isSome

/-- Every accepted Issue but the running one has its one Done (R33, R187). -/
def BalanceInv (s : State) : Prop :=
  s.hist.countP isIssue = s.hist.countP isDone + s.busy.toNat ∧ (s.busy = true ↔ s.seq ≠ .idle)

/-! ### Whole commands -/

/-- The events of one data chunk at cursor c of the bytes at buffer index b, closed with OK and followed by the fixed settle delay
(R102, R103, R106). -/
def settledChunkEvents (bus : Byte) (settle : Millis) (buf : Memory) (c : Offset) (b n : Nat) : List Event :=
  offsetEvents bus c
    ++ (List.range n).map (fun j => .wr (Memory.read buf (b + j)))
    ++ [.endTx .ok, .sleep settle]

/-- The sizes of the chunks of a write of n bytes from offset c (R101), by a bound on their number. -/
def chunkSizes : Nat → Nat → Nat → List Nat
  | 0, _, _ => []
  | fuel + 1, c, n =>
    if n = 0 then []
    else
      let k := min (Config.PAGE - c % Config.PAGE) n
      k :: chunkSizes fuel (c + k) (n - k)

/-- The bus and clock events of the chunks of a write whose every close is OK and whose SETTLE is not 0 (R109). -/
def settledWriteEvents (bus : Byte) (settle : Millis) (buf : Memory) : List Nat → Nat → Nat → List Event
  | [], _, _ => []
  | k :: rest, c, b =>
    settledChunkEvents bus settle buf (BitVec.ofNat 16 c) b k
      ++ settledWriteEvents bus settle buf rest (c + k) (b + k)

/-- The raw answers of a read of the bytes ds that is answered fully, in requests of at most cap bytes: each count, and for each
byte "available" and the byte (R132 to R134), by a bound on the number of requests. -/
def fullReadAnswers (cap : Nat) : Nat → List Byte → List Nat
  | 0, _ => []
  | fuel + 1, ds =>
    if ds = [] then []
    else
      min cap ds.length :: (ds.take cap).flatMap (fun d => [1, d.toNat])
        ++ fullReadAnswers cap fuel (ds.drop cap)

/-- The bytes a run of events received. -/
def receivedBytes (hist : List Event) : List Byte :=
  hist.filterMap fun e =>
    match e with
    | .rd b => some b
    | _ => none

/-- The close statuses in a run of events. -/
def closeCount (hist : List Event) : Nat :=
  hist.countP fun e =>
    match e with
    | .endTx _ => true
    | _ => false

end Sys2Proof.Safety
end

