-- ==== Sys2Proof/Certificates/Slice0/Obligations.lean ====
section
/-! DEFINITION. The statements for the provers, from the numbered rules of spec/. Where a statement rests on a choice of the
model or on an inference the spec marks as its own, its docstring says so. -/

open Sys2Proof Sys2Proof.Machine Sys2Proof.Safety

/-! ## Encoding (spec/30_encoding.md) -/

/-- R70, R76: every command, at every bus address, is what its word decodes to. -/
def Obligations.EncodeThenDecodeIsIdentity : Prop :=
  ∀ i : Instr, i.wf = true → decode (encode i) = some i

/-- R76: at most one row matches a word, and the word is {BUS, match[7:0]} of it. -/
def Obligations.DecodeThenEncodeIsIdentity : Prop :=
  ∀ (w : CmdWord) (i : Instr), decode w = some i → encode i = w

/-- R76: the 28 rows. A word is a command exactly when its bits [7:0] are the row's match, and BUS is its bits [15:8]. -/
def Obligations.OpcodeMapRows : Prop :=
  ∀ (w : CmdWord) (bus : Byte),
    (decode w = some (.writeB bus) ↔ w.extractLsb' 0 8 = 0x01#8 ∧ w.extractLsb' 8 8 = bus)
      ∧ (decode w = some (.addr bus) ↔ w.extractLsb' 0 8 = 0x03#8 ∧ w.extractLsb' 8 8 = bus)
      ∧ (decode w = some (.readB bus) ↔ w.extractLsb' 0 8 = 0x02#8 ∧ w.extractLsb' 8 8 = bus)
      ∧ (decode w = some (.readBN bus) ↔ w.extractLsb' 0 8 = 0x0A#8 ∧ w.extractLsb' 8 8 = bus)
      ∧ (decode w = some (.writeU8 bus) ↔ w.extractLsb' 0 8 = 0x11#8 ∧ w.extractLsb' 8 8 = bus)
      ∧ (decode w = some (.writeI8 bus) ↔ w.extractLsb' 0 8 = 0x21#8 ∧ w.extractLsb' 8 8 = bus)
      ∧ (decode w = some (.writeU16 bus) ↔ w.extractLsb' 0 8 = 0x31#8 ∧ w.extractLsb' 8 8 = bus)
      ∧ (decode w = some (.writeI16 bus) ↔ w.extractLsb' 0 8 = 0x41#8 ∧ w.extractLsb' 8 8 = bus)
      ∧ (decode w = some (.writeU32 bus) ↔ w.extractLsb' 0 8 = 0x51#8 ∧ w.extractLsb' 8 8 = bus)
      ∧ (decode w = some (.writeI32 bus) ↔ w.extractLsb' 0 8 = 0x61#8 ∧ w.extractLsb' 8 8 = bus)
      ∧ (decode w = some (.writeF32 bus) ↔ w.extractLsb' 0 8 = 0x71#8 ∧ w.extractLsb' 8 8 = bus)
      ∧ (decode w = some (.writeF64 bus) ↔ w.extractLsb' 0 8 = 0x81#8 ∧ w.extractLsb' 8 8 = bus)
      ∧ (decode w = some (.readU8 bus) ↔ w.extractLsb' 0 8 = 0x12#8 ∧ w.extractLsb' 8 8 = bus)
      ∧ (decode w = some (.readI8 bus) ↔ w.extractLsb' 0 8 = 0x22#8 ∧ w.extractLsb' 8 8 = bus)
      ∧ (decode w = some (.readU16 bus) ↔ w.extractLsb' 0 8 = 0x32#8 ∧ w.extractLsb' 8 8 = bus)
      ∧ (decode w = some (.readI16 bus) ↔ w.extractLsb' 0 8 = 0x42#8 ∧ w.extractLsb' 8 8 = bus)
      ∧ (decode w = some (.readU32 bus) ↔ w.extractLsb' 0 8 = 0x52#8 ∧ w.extractLsb' 8 8 = bus)
      ∧ (decode w = some (.readI32 bus) ↔ w.extractLsb' 0 8 = 0x62#8 ∧ w.extractLsb' 8 8 = bus)
      ∧ (decode w = some (.readF32 bus) ↔ w.extractLsb' 0 8 = 0x72#8 ∧ w.extractLsb' 8 8 = bus)
      ∧ (decode w = some (.readF64 bus) ↔ w.extractLsb' 0 8 = 0x82#8 ∧ w.extractLsb' 8 8 = bus)
      ∧ (decode w = some (.readU8N bus) ↔ w.extractLsb' 0 8 = 0x1A#8 ∧ w.extractLsb' 8 8 = bus)
      ∧ (decode w = some (.readI8N bus) ↔ w.extractLsb' 0 8 = 0x2A#8 ∧ w.extractLsb' 8 8 = bus)
      ∧ (decode w = some (.readU16N bus) ↔ w.extractLsb' 0 8 = 0x3A#8 ∧ w.extractLsb' 8 8 = bus)
      ∧ (decode w = some (.readI16N bus) ↔ w.extractLsb' 0 8 = 0x4A#8 ∧ w.extractLsb' 8 8 = bus)
      ∧ (decode w = some (.readU32N bus) ↔ w.extractLsb' 0 8 = 0x5A#8 ∧ w.extractLsb' 8 8 = bus)
      ∧ (decode w = some (.readI32N bus) ↔ w.extractLsb' 0 8 = 0x6A#8 ∧ w.extractLsb' 8 8 = bus)
      ∧ (decode w = some (.readF32N bus) ↔ w.extractLsb' 0 8 = 0x7A#8 ∧ w.extractLsb' 8 8 = bus)
      ∧ (decode w = some (.readF64N bus) ↔ w.extractLsb' 0 8 = 0x8A#8 ∧ w.extractLsb' 8 8 = bus)

/-- R71, R72, R73, R78: a word decodes exactly when its OP, N and T are legal, each checked by itself. -/
def Obligations.DecodesExactlyTheLegalWords : Prop :=
  ∀ w : CmdWord, (decode w).isSome = WellFormed.commandWord w

/-- The words of spec/95_test_vectors.md V-E1. -/
def Obligations.TestVectorWordsDecode : Prop :=
  decode 0x5001 = some (.writeB 0x50) ∧ decode 0x5002 = some (.readB 0x50) ∧ decode 0x5003 = some (.addr 0x50)
    ∧ decode 0x500A = some (.readBN 0x50) ∧ decode 0x5031 = some (.writeU16 0x50)
    ∧ decode 0xA052 = some (.readU32 0xA0) ∧ decode 0x5081 = some (.writeF64 0x50)
    ∧ decode 0x508A = some (.readF64N 0x50) ∧ decode 0x0003 = some (.addr 0x00)
    ∧ decode 0x5000 = none ∧ decode 0x5007 = none ∧ decode 0x5009 = none ∧ decode 0x500B = none
    ∧ decode 0x5013 = none ∧ decode 0x5091 = none ∧ decode 0x50A2 = none ∧ decode 0x509A = none

/-! ## A step and the command it runs -/

/-- R17, R185 (that a running command's step is asked of the command in CMD is log 17): where an Issue of a legal word lands, the step is exec of its command; while a command runs and the host makes no
other move, the step is exec of the command in CMD; step adds nothing around exec. -/
def Obligations.StepRunsTheDecodedCommand : Prop :=
  (∀ (s : State) (r : IssueReq) (i : Instr),
      fetch s = some r → decode r.cmd = some i → step s = exec i s)
    ∧ ∀ (s : State) (i : Instr),
      hostQuiet s = true → s.seq.running = true → decode s.cmd = some i → step s = exec i s

/-- While a command runs and the host makes no other move, exec of any command performs the primitive STATE names, whichever
command it is: STATE alone names it (R26; log 17). -/
def Obligations.StateNamesThePrimitive : Prop :=
  ∀ (s : State) (i : Instr),
    hostQuiet s = true → s.seq.running = true → exec i s = .next (perform (dropPass s)) ∧ step s = exec i s

/-- R26, R27: where the host makes no move, IDLE waits for a command and only TIME goes by, and FAULT has stopped. That a waiting step
is a next state and that the stop is a fault outcome are the model's choices (logs 16 and 6). -/
def Obligations.IdleWaitsAndFaultStops : Prop :=
  ∀ s : State, s.inbox = [] →
    (s.seq = .idle →
        ∃ t, step s = .next t ∧ s.time ≤ t.time
          ∧ t = { s with time := t.time, delays := t.delays, ticks := t.ticks })
      ∧ ∀ reason, s.seq = .fault reason → step s = .fault (.engineStopped reason)

/-! ## Issue (spec/60_exceptions.md R185, R186) -/

/-- R185: an Issue that is not refused latches the word and every operand, sets BUSY or has already finished, and records Issue,
for every command. -/
def Obligations.AcceptedIssueLatchesOperands : Prop :=
  ∀ (i : Instr) (s : State) (r : IssueReq), Accepted (useOf i) r s →
    ∃ t, exec i s = .next t ∧ t.cmd = encode i ∧ t.cursorLoaded = true ∧ t.len = r.len ∧ t.settle = r.settle
      ∧ t.bufLen = (lentBytes (useOf i) r).length ∧ t.bufLen < 2 ^ 20
      ∧ (∀ a, Memory.read t.buf a = (lentBytes (useOf i) r).getD a 0#8)
      ∧ (t.busy = true ∨ t.seq = .idle)
      ∧ s.hist ++ [.issue (encode i) r.cur r.len r.settle (lentBytes (useOf i) r).length] <+: t.hist

/-- R186: each of the five conditions refuses the Issue; only Refused(cmd) is recorded and every register, buffer byte and STATUS
field is as before. Some reason is given, and every reason given holds of the Issue. -/
def Obligations.RefusedIssueChangesNothing : Prop :=
  ∀ (s : State) (r : IssueReq), fetch s = some r →
    (decode r.cmd = none ∨ (s.seq ≠ .idle ∧ s.seq.isFault = false) ∨ s.seq.isFault = true
      ∨ (r.cur = none ∧ s.cursorLoaded = false)
      ∨ ∃ i, decode r.cmd = some i ∧ useOf i = .needed ∧ r.buf = none) →
    ∃ t reasons, step s = .next t
      ∧ t = { s with
          hist := s.hist ++ [.refused r.cmd], reply := .refused reasons, inbox := s.inbox.tail,
          time := t.time, delays := t.delays, ticks := t.ticks }
      ∧ reasons ≠ []
      ∧ (.reservedEncoding ∈ reasons → decode r.cmd = none)
      ∧ (.busy ∈ reasons → s.seq ≠ .idle ∧ s.seq.isFault = false)
      ∧ (.faulted ∈ reasons → s.seq.isFault = true)
      ∧ (.noCursor ∈ reasons → r.cur = none ∧ s.cursorLoaded = false)
      ∧ (.noBuffer ∈ reasons → ∃ i, decode r.cmd = some i ∧ useOf i = .needed ∧ r.buf = none)

/-- The reasons the host is answered are all that hold (R186 gives no order among them; that all are named at once is the model's
choice, log 7). -/
def Obligations.RefusalNamesItsReasons : Prop :=
  ∀ (s : State) (r : IssueReq) (t : State), fetch s = some r → step s = .next t →
    ∀ reasons, t.reply = .refused reasons →
      (.reservedEncoding ∈ reasons ↔ decode r.cmd = none)
        ∧ (.busy ∈ reasons ↔ s.seq ≠ .idle ∧ s.seq.isFault = false)
        ∧ (.faulted ∈ reasons ↔ s.seq.isFault = true)
        ∧ (.noCursor ∈ reasons ↔ r.cur = none ∧ s.cursorLoaded = false)
        ∧ (.noBuffer ∈ reasons ↔ ∃ i, decode r.cmd = some i ∧ useOf i = .needed ∧ r.buf = none)

/-- R100, R101: the issue step of WRITE.T, for every element type: the capacity check, then the first chunk, or Success where there
is nothing to write. -/
def Obligations.WriteIssueStep : Prop :=
  ∀ (ty : ElemType) (bus : Byte) (s : State) (r : IssueReq), Accepted .needed r s →
    ∃ t, exec (.write ty bus) s = .next t ∧ t.bytelen.toNat = issuedLength ty r s
      ∧ t.cursor = issuedCursor r s ∧ t.bufLen = (lentBytes .needed r).length
      ∧ (∀ a, Memory.read t.buf a = (lentBytes .needed r).getD a 0#8)
      ∧ (let c := (issuedCursor r s).toNat
         let n := issuedLength ty r s
         let issued := Event.issue (encode (.write ty bus)) r.cur r.len r.settle (lentBytes .needed r).length
         if Config.CAPACITY < c + n then Finished .exceedRomCapacity [issued] s t
         else if n = 0 then Finished .success [issued] s t ∧ t.bptr = 0#17
         else
           t.rem.toNat = n ∧ t.bptr = 0#17 ∧ t.seq = .wBegin ∧ t.busy = true
             ∧ t.hist = s.hist ++ [issued]
             ∧ t.chunk.toNat = min (Config.PAGE - c % Config.PAGE) n ∧ t.cidx.toNat = 0)

/-- R130, R132: the issue step of READ.T, for every element type. -/
def Obligations.ReadIssueStep : Prop :=
  ∀ (ty : ElemType) (bus : Byte) (s : State) (r : IssueReq), Accepted .needed r s →
    ∃ t, exec (.read ty bus) s = .next t ∧ t.bytelen.toNat = issuedLength ty r s
      ∧ t.cursor = issuedCursor r s ∧ t.bufLen = (lentBytes .needed r).length
      ∧ (∀ a, Memory.read t.buf a = (lentBytes .needed r).getD a 0#8)
      ∧ (let c := (issuedCursor r s).toNat
         let n := issuedLength ty r s
         let issued := Event.issue (encode (.read ty bus)) r.cur r.len r.settle (lentBytes .needed r).length
         if Config.CAPACITY < c + n then Finished .exceedRomCapacity [issued] s t
         else if n = 0 then Finished .success [issued] s t ∧ t.bptr = 0#17
         else
           t.rem.toNat = n ∧ t.bptr = 0#17 ∧ t.seq = .rReq ∧ t.busy = true
             ∧ t.hist = s.hist ++ [issued]
             ∧ t.chunk.toNat = min s.params.readCap n ∧ t.cidx.toNat = 0)

/-- R130, R136: the issue step of READ.T.N, for every element type: CURSOR advances by the byte length before the transaction, and
wraps to 0 at 65536. No buffer is lent. -/
def Obligations.SeekIssueStep : Prop :=
  ∀ (ty : ElemType) (bus : Byte) (s : State) (r : IssueReq), Accepted .null r s →
    ∃ t, exec (.seek ty bus) s = .next t ∧ t.bytelen.toNat = issuedLength ty r s ∧ t.bufLen = 0
      ∧ (let c := (issuedCursor r s).toNat
         let n := issuedLength ty r s
         let issued := Event.issue (encode (.seek ty bus)) r.cur r.len r.settle 0
         if Config.CAPACITY < c + n then
           Finished .exceedRomCapacity [issued] s t ∧ t.cursor = issuedCursor r s
         else
           t.cursor.toNat = (c + n) % 65536 ∧ t.bptr = 0#17 ∧ t.seq = .aBegin ∧ t.busy = true
             ∧ t.hist = s.hist ++ [issued])

/-- R120: the issue step of ADDR: no capacity check, CURSOR as issued, BPTR 0. That BYTELEN and REM keep what they held is the model's
choice (log 20). -/
def Obligations.AddrIssueStep : Prop :=
  ∀ (bus : Byte) (s : State) (r : IssueReq), Accepted .unused r s →
    ∃ t, exec (.addr bus) s = .next t ∧ t.cursor = issuedCursor r s ∧ t.bptr = 0#17 ∧ t.seq = .aBegin
      ∧ t.busy = true ∧ t.bytelen = s.bytelen ∧ t.rem = s.rem
      ∧ t.hist = s.hist ++ [.issue (encode (.addr bus)) r.cur r.len r.settle (lentBytes .unused r).length]

/-- BPTR is 0 after a command rejected with ExceedRomCapacity, as R29 and R181 say and R100's comment does not (the model's
reading, log 9). -/
def Obligations.RejectedRangeLeavesBptrZero : Prop :=
  ∀ (i : Instr) (s t : State) (r : IssueReq), Accepted (useOf i) r s → exec i s = .next t →
    t.result = .exceedRomCapacity → t.seq = .idle → t.bptr = 0#17

/-- What the issue step leaves unchanged: the parameters, TMARK and the answers to come for every command; REM, CHUNK and CIDX for
seek and ADDR, and BYTELEN for ADDR; and a refused command leaves everything (R186). That an accepted command keeps the registers its
own rules do not write, those of seek and ADDR and TMARK, is the model's choice (log 20). -/
def Obligations.IssueFrame : Prop :=
  ∀ (i : Instr) (s t : State) (r : IssueReq), fetch s = some r → exec i s = .next t →
    t.params = s.params ∧ t.tmark = s.tmark ∧ t.answers = s.answers ∧ t.inbox = s.inbox.tail
      ∧ (useOf i ≠ .needed → t.rem = s.rem ∧ t.chunk = s.chunk ∧ t.cidx = s.cidx)
      ∧ (useOf i = .unused → t.bytelen = s.bytelen)
      ∧ (t.busy = true → t.result = s.result ∧ t.resultValid = s.resultValid)
      ∧ (¬ Accepted (useOf i) r s →
          KeepsOperands s { t with reply := s.reply } ∧ KeepsProgress s t ∧ KeepsChunk s t ∧ KeepsStatus s t
            ∧ KeepsBuffer s t ∧ t.seq = s.seq)

/-- R158: a typed command is the byte command of the same direction with LEN' = LEN × W(T), where that fits LEN's 17 bits: after
the issue step the two states differ in CMD, LEN and the one Issue event only, and BUS is one. -/
def Obligations.TypedCommandIsScaledByteCommand : Prop :=
  ∀ (ty : ElemType) (bus : Byte) (s : State) (r r' : IssueReq) (rest : List HostMove),
    s.inbox = .issue r :: rest → r'.cur = r.cur → r'.settle = r.settle → r'.buf = r.buf →
    r'.len.toNat = issuedLength ty r s →
    let s' := { s with inbox := .issue r' :: rest }
    (∀ t, exec (.write ty bus) s = .next t → Accepted .needed r s →
        ∃ t', exec (.write .b bus) s' = .next t' ∧ busOf t' = busOf t
          ∧ t' = { t with
              cmd := encode (.write .b bus), len := r'.len,
              hist := s.hist ++ [.issue (encode (.write .b bus)) r.cur r'.len r.settle t.bufLen]
                ++ t.hist.drop (s.hist.length + 1) })
      ∧ (∀ t, exec (.read ty bus) s = .next t → Accepted .needed r s →
        ∃ t', exec (.read .b bus) s' = .next t' ∧ busOf t' = busOf t
          ∧ t' = { t with
              cmd := encode (.read .b bus), len := r'.len,
              hist := s.hist ++ [.issue (encode (.read .b bus)) r.cur r'.len r.settle t.bufLen]
                ++ t.hist.drop (s.hist.length + 1) })
      ∧ (∀ t, exec (.seek ty bus) s = .next t → Accepted .null r s →
        ∃ t', exec (.seek .b bus) s' = .next t' ∧ busOf t' = busOf t
          ∧ t' = { t with
              cmd := encode (.seek .b bus), len := r'.len,
              hist := s.hist ++ [.issue (encode (.seek .b bus)) r.cur r'.len r.settle t.bufLen]
                ++ t.hist.drop (s.hist.length + 1) })

/-- R159, R57, for every typed write: where the chunker has come to byte j of element k, the step of WRITE.T sends the byte of BUF at index
k × W(T) + j, and that byte goes to device offset C0 + k × W(T) + j: it comes as many bytes after the offset c of its transaction as
C0 + k × W(T) + j lies above c. C0 is the cursor at issue, by which CURSOR leads BPTR (CursorAdvancesWithBptr). -/
def Obligations.TypedWriteSendsElementBytes : Prop :=
  ∀ (ty : ElemType) (bus : Byte) (s : State) (c0 : Offset) (k j : Nat),
    EngineInv s → TransactionInv s → hostQuiet s = true → s.cmd = encode (.write ty bus) → s.seq = .wData →
    s.cursor = c0 + s.bptr.setWidth 16 →
    (elementIndexes s.params ty k)[j]? = some (s.bptr.toNat + s.cidx.toNat) →
    s.bptr.toNat + s.cidx.toNat < s.bufLen →
    let i := k * width s.params ty + j
    ∃ t, exec (.write ty bus) s = .next t ∧ t.hist = s.hist ++ [.wr (Memory.read s.buf i)]
      ∧ ∃ (c : Offset) (before : List Byte),
        offsetEvents bus c ++ before.map .wr ++ [.wr (Memory.read s.buf i)] <:+ busEvents t.hist
          ∧ c + BitVec.ofNat 16 before.length = c0 + BitVec.ofNat 16 i

/-- R159, R53, for every typed read: where the drain loop has come to byte j of element k, the step of READ.T stores the byte received
at index k × W(T) + j of BUF and at no other, and counts it as the one from device offset C0 + k × W(T) + j. -/
def Obligations.TypedReadStoresElementBytes : Prop :=
  ∀ (ty : ElemType) (bus : Byte) (s : State) (c0 : Offset) (k j : Nat),
    EngineInv s → hostQuiet s = true → s.cmd = encode (.read ty bus) → s.seq = .rByte →
    s.cursor = c0 + s.bptr.setWidth 16 →
    (elementIndexes s.params ty k)[j]? = some s.bptr.toNat →
    s.bptr.toNat < s.bufLen → nextAnswer s ≤ 255 →
    let i := k * width s.params ty + j
    let b : Byte := BitVec.ofNat 8 (nextAnswer s)
    ∃ t, exec (.read ty bus) s = .next t ∧ t.hist = s.hist ++ [.rd b]
      ∧ (∀ a, Memory.read t.buf a = if a = i then b else Memory.read s.buf a)
      ∧ s.cursor = c0 + BitVec.ofNat 16 i ∧ t.cursor = c0 + BitVec.ofNat 16 (i + 1) ∧ t.bptr.toNat = i + 1

/-! ## The write sequence (spec/40_write.md) -/

/-- R101, R132: NextWriteChunk() and NextReadChunk() finish with Success where REM is 0, and otherwise set CHUNK, CIDX and STATE and
nothing else. A write chunk has 1 to PAGE bytes and a read chunk 1 to READ_CAP. -/
def Obligations.NextChunkSizes : Prop :=
  ∀ s : State,
    (s.rem = 0#17 → nextWriteChunk s = finish .success s ∧ nextReadChunk s = finish .success s)
      ∧ (s.rem ≠ 0#17 →
        ∃ k m : BitVec 8,
          nextWriteChunk s = { s with chunk := k, cidx := 0#8, seq := .wBegin }
            ∧ k.toNat = min (64 - s.cursor.toNat % 64) s.rem.toNat ∧ 1 ≤ k.toNat ∧ k.toNat ≤ 64
            ∧ nextReadChunk s = { s with chunk := m, cidx := 0#8, seq := .rReq }
            ∧ m.toNat = min s.params.readCap s.rem.toNat ∧ 1 ≤ m.toNat ∧ m.toNat ≤ s.params.readCap)

/-- R102: the rows W_BEGIN to W_END of a data chunk; what W_END does with the close status is R103's. -/
def Obligations.WriteChunkTransmission : Prop :=
  ∀ s : State, hostQuiet s = true →
    (s.seq = .wBegin →
        ∃ t, step s = .next t ∧ GoesOn .wAhi [.begin (s.cmd.extractLsb' 8 8)] s t)
      ∧ (s.seq = .wAhi →
        ∃ t, step s = .next t ∧ GoesOn .wAlo [.wr (s.cursor.extractLsb' 8 8)] s t)
      ∧ (s.seq = .wAlo →
        ∃ t, step s = .next t ∧ GoesOn .wData [.wr (s.cursor.extractLsb' 0 8)] s t)
      ∧ (s.seq = .wData →
        ∃ t, step s = .next t
          ∧ if s.bufLen ≤ s.bptr.toNat + s.cidx.toNat then GoesOn (.fault .bufOob) [] s t
            else
              GoesOn (if t.cidx.toNat < s.chunk.toNat then .wData else .wEnd)
                  [.wr (Memory.read s.buf (s.bptr.toNat + s.cidx.toNat))] s t
                ∧ t.cidx = s.cidx + 1)
      ∧ (s.seq = .wEnd → ∀ status, TxStatus.ofRaw (nextAnswer s) = some status →
        ∃ t, step s = .next t ∧ s.hist ++ [.endTx status] <+: t.hist)

/-- R103: the chunk's close: any status but OK ends the command with nothing advanced; OK advances BPTR, CURSOR and REM and chooses
the completion wait by SETTLE (R104). -/
def Obligations.WriteChunkClose : Prop :=
  ∀ s : State, EngineInv s → hostQuiet s = true → s.seq = .wEnd → ∀ status, TxStatus.ofRaw (nextAnswer s) = some status →
    ∃ t, step s = .next t
      ∧ if status = .ok then
          GoesOn (if s.settle.toNat > 0 then .wSettle else .wPmark) [.endTx .ok] s t
            ∧ t.bptr.toNat = s.bptr.toNat + s.chunk.toNat
            ∧ t.cursor.toNat = (s.cursor.toNat + s.chunk.toNat) % 65536
            ∧ t.rem.toNat + s.chunk.toNat = s.rem.toNat
        else Finished (resultOf status) [.endTx status] s t ∧ KeepsProgress s t

/-- R106: the fixed settle delay: one sleep of at least SETTLE, no probe and no check, then the next chunk; and a write with
SETTLE > 0 never finishes with Timeout. -/
def Obligations.FixedSettleDelay : Prop :=
  (∀ s : State, hostQuiet s = true → s.seq = .wSettle →
      ∃ t, step s = .next t ∧ s.time + s.settle.toNat ≤ t.time
        ∧ WriteContinues s.cursor.toNat s.rem.toNat [.sleep s.settle] s t)
    ∧ ∀ s t : State, EngineInv s → hostQuiet s = true → inWrite s.seq = true → s.settle.toNat > 0 → step s = .next t →
      t.seq = .idle → t.result ≠ .timeout

/-- R105: the rows of acknowledge polling. The probe is the address-only transaction at the advanced cursor; only an OK probe ends
the poll, any other status is "not ready yet" and no result; the timeout is strict and tested after the probe, on the 32-bit
difference of R14. That ClkMillis reads TIME as it is before its own step's advance is the model's choice (log 2). -/
def Obligations.AcknowledgePolling : Prop :=
  ∀ s : State, hostQuiet s = true →
    (s.seq = .wPmark →
        ∃ t, step s = .next t ∧ t.tmark = BitVec.ofNat 32 s.time
          ∧ GoesOn .wPsleep [.ms (BitVec.ofNat 32 s.time)] s t)
      ∧ (s.seq = .wPsleep →
        ∃ t, step s = .next t ∧ s.time + 1 ≤ t.time ∧ GoesOn .pBegin [.sleep 1#32] s t)
      ∧ (s.seq = .pBegin →
        ∃ t, step s = .next t ∧ GoesOn .pAhi [.begin (s.cmd.extractLsb' 8 8)] s t)
      ∧ (s.seq = .pAhi →
        ∃ t, step s = .next t ∧ GoesOn .pAlo [.wr (s.cursor.extractLsb' 8 8)] s t)
      ∧ (s.seq = .pAlo →
        ∃ t, step s = .next t ∧ GoesOn .pEnd [.wr (s.cursor.extractLsb' 0 8)] s t)
      ∧ (s.seq = .pEnd → ∀ status, TxStatus.ofRaw (nextAnswer s) = some status →
        ∃ t, step s = .next t
          ∧ if status = .ok then WriteContinues s.cursor.toNat s.rem.toNat [.endTx .ok] s t
            else GoesOn .wPchk [.endTx status] s t)
      ∧ (s.seq = .wPchk →
        ∃ t, step s = .next t
          ∧ if 20 < (BitVec.ofNat 32 s.time - s.tmark).toNat then
              Finished .timeout [.ms (BitVec.ofNat 32 s.time)] s t
            else GoesOn .wPsleep [.ms (BitVec.ofNat 32 s.time)] s t)

/-- What a step of a running WRITE.T leaves unchanged (R52, R102 to R106): the operands and every byte of BUF always; CURSOR, REM and
BPTR but at W_END; CHUNK but where a chunk starts; CIDX but where a chunk starts or a data byte goes; TMARK but at W_PMARK; STATUS
but where the command finishes. -/
def Obligations.WriteSequenceFrame : Prop :=
  ∀ (ty : ElemType) (bus : Byte) (s t : State),
    fetch s = none → inWrite s.seq = true → exec (.write ty bus) s = .next t →
    KeepsOperands s t ∧ KeepsBuffer s t
      ∧ (s.seq ≠ .wEnd → KeepsProgress s t)
      ∧ (t.seq ≠ .wBegin → t.chunk = s.chunk ∧ (s.seq ≠ .wData → t.cidx = s.cidx))
      ∧ (s.seq ≠ .wPmark → t.tmark = s.tmark)
      ∧ (t.seq ≠ .idle → KeepsStatus s t)

/-! ## The address-only sequence (spec/41_addr.md) -/

/-- R121: the four rows A_BEGIN to A_END: the close status is the result, whatever it is. -/
def Obligations.AddressOnlySequence : Prop :=
  ∀ s : State, hostQuiet s = true →
    (s.seq = .aBegin →
        ∃ t, step s = .next t ∧ GoesOn .aAhi [.begin (s.cmd.extractLsb' 8 8)] s t)
      ∧ (s.seq = .aAhi →
        ∃ t, step s = .next t ∧ GoesOn .aAlo [.wr (s.cursor.extractLsb' 8 8)] s t)
      ∧ (s.seq = .aAlo →
        ∃ t, step s = .next t ∧ GoesOn .aEnd [.wr (s.cursor.extractLsb' 0 8)] s t)
      ∧ (s.seq = .aEnd → ∀ status, TxStatus.ofRaw (nextAnswer s) = some status →
        ∃ t, step s = .next t ∧ Finished (resultOf status) [.endTx status] s t)

/-- What a step of a running ADDR or READ.T.N leaves unchanged (R122, R136): everything but STATE, HIST, and STATUS where it
finishes. -/
def Obligations.AddrSequenceFrame : Prop :=
  ∀ (ty : ElemType) (bus : Byte) (s t : State),
    fetch s = none → inAddr s.seq = true → (exec (.addr bus) s = .next t ∨ exec (.seek ty bus) s = .next t) →
    KeepsOperands s t ∧ KeepsBuffer s t ∧ KeepsProgress s t ∧ KeepsChunk s t ∧ (t.seq ≠ .idle → KeepsStatus s t)

/-! ## The buffered read sequence (spec/42_read.md) -/

/-- R133: the request, and the length check as an inequality: a short and a long count both end the command. -/
def Obligations.ReadRequestChecksTheCount : Prop :=
  ∀ s : State, hostQuiet s = true → s.seq = .rReq → nextAnswer s ≤ 255 →
    ∃ t, step s = .next t ∧ KeepsProgress s t
      ∧ (let received := Event.req (s.cmd.extractLsb' 8 8) s.chunk (BitVec.ofNat 8 (nextAnswer s))
         if nextAnswer s = s.chunk.toNat then GoesOn .rMark [received] s t
         else Finished .unexpectedDataLength [received] s t)

/-- R134: the five rows of the drain loop. The timer restarts at the chunk and on every byte, and the timeout is strict. That ClkMillis
reads TIME as it is before its own step's advance is the model's choice (log 2). -/
def Obligations.DrainLoop : Prop :=
  ∀ s : State, EngineInv s → hostQuiet s = true →
    (s.seq = .rMark →
        ∃ t, step s = .next t ∧ t.tmark = BitVec.ofNat 32 s.time
          ∧ GoesOn .rAvail [.ms (BitVec.ofNat 32 s.time)] s t)
      ∧ (s.seq = .rAvail → nextAnswer s ≤ 1 →
        ∃ t, step s = .next t
          ∧ GoesOn (if nextAnswer s = 1 then .rByte else .rTchk) [.avail (nextAnswer s == 1)] s t)
      ∧ (s.seq = .rByte → s.bptr.toNat < s.bufLen → nextAnswer s ≤ 255 →
        ∃ t, step s = .next t ∧ GoesOn .rTmark [.rd (BitVec.ofNat 8 (nextAnswer s))] s t
          ∧ Memory.read t.buf s.bptr.toNat = BitVec.ofNat 8 (nextAnswer s)
          ∧ t.bptr.toNat = s.bptr.toNat + 1 ∧ t.cursor.toNat = (s.cursor.toNat + 1) % 65536
          ∧ t.rem.toNat + 1 = s.rem.toNat ∧ t.cidx.toNat = s.cidx.toNat + 1)
      ∧ (s.seq = .rByte → s.bufLen ≤ s.bptr.toNat →
        ∃ t, step s = .next t ∧ GoesOn (.fault .bufOob) [] s t)
      ∧ (s.seq = .rTmark →
        ∃ t, step s = .next t ∧ t.tmark = BitVec.ofNat 32 s.time
          ∧ if s.cidx = s.chunk then ReadContinues s.rem.toNat [.ms (BitVec.ofNat 32 s.time)] s t
            else GoesOn .rAvail [.ms (BitVec.ofNat 32 s.time)] s t)
      ∧ (s.seq = .rTchk →
        ∃ t, step s = .next t
          ∧ if 20 < (BitVec.ofNat 32 s.time - s.tmark).toNat then
              Finished .timeout [.ms (BitVec.ofNat 32 s.time)] s t
            else GoesOn .rAvail [.ms (BitVec.ofNat 32 s.time)] s t)

/-- What a step of a running READ.T leaves unchanged (R53, R132 to R135): the operands always; every byte of BUF but the one at
index BPTR at R_BYTE; CURSOR, REM and BPTR but at R_BYTE; CHUNK but where a chunk starts; CIDX but there and at R_BYTE; TMARK but at
R_MARK and R_TMARK; STATUS but where the command finishes. -/
def Obligations.ReadSequenceFrame : Prop :=
  ∀ (ty : ElemType) (bus : Byte) (s t : State),
    BufferInv s → fetch s = none → inRead s.seq = true → exec (.read ty bus) s = .next t →
    KeepsOperands s t
      ∧ (∀ a, (s.seq ≠ .rByte ∨ a ≠ s.bptr.toNat) → Memory.read t.buf a = Memory.read s.buf a)
      ∧ (s.seq ≠ .rByte → KeepsProgress s t ∧ (t.seq ≠ .rReq → t.cidx = s.cidx))
      ∧ (t.seq ≠ .rReq → t.chunk = s.chunk)
      ∧ (s.seq ≠ .rMark ∧ s.seq ≠ .rTmark → t.tmark = s.tmark)
      ∧ (t.seq ≠ .idle → KeepsStatus s t)

/-! ## FAULT, results and STATUS (spec/20_memory.md, spec/60_exceptions.md, spec/10_state.md) -/

/-- R51: an access at or above BUFLEN faults in its step, before the primitive: nothing is recorded, and BUF, CURSOR, REM and BPTR
are as before. -/
def Obligations.OutOfBoundsAccessFaults : Prop :=
  ∀ s : State, hostQuiet s = true →
    ((s.seq = .wData ∧ s.bufLen ≤ s.bptr.toNat + s.cidx.toNat) ∨ (s.seq = .rByte ∧ s.bufLen ≤ s.bptr.toNat)) →
    ∃ t, step s = .next t ∧ t.seq = .fault .bufOob ∧ t.hist = s.hist ∧ t.buf = s.buf ∧ KeepsProgress s t
      ∧ KeepsStatus s t

/-- R191: an answer outside its type is fault(BAD_ANSWER) in the step that took it, and never a result. -/
def Obligations.AnswerOutsideItsTypeFaults : Prop :=
  ∀ s : State, hostQuiet s = true →
    ((s.seq = .wEnd ∨ s.seq = .pEnd ∨ s.seq = .aEnd) ∧ 5 ≤ nextAnswer s
      ∨ s.seq = .rReq ∧ 256 ≤ nextAnswer s ∨ s.seq = .rAvail ∧ 2 ≤ nextAnswer s
      ∨ s.seq = .rByte ∧ s.bptr.toNat < s.bufLen ∧ 256 ≤ nextAnswer s) →
    ∃ t, step s = .next t ∧ t.seq = .fault .badAnswer ∧ KeepsStatus s t

/-- R27: FAULT is entered only where the step would access the buffer out of bounds or got an answer outside its type, and STATUS is
then as before; no step but a reset leaves it, RESULT and BUSY keep their values in it, an Issue in it is refused, and a reset clears
it. -/
def Obligations.FaultIsTerminal : Prop :=
  (∀ (s t : State) (reason : EngineFault), step s = .next t → s.seq.isFault = false → t.seq = .fault reason →
      KeepsStatus s t
        ∧ ((reason = .bufOob ∧ ((s.seq = .wData ∧ s.bufLen ≤ s.bptr.toNat + s.cidx.toNat)
              ∨ (s.seq = .rByte ∧ s.bufLen ≤ s.bptr.toNat)))
          ∨ (reason = .badAnswer ∧ ((s.seq = .wEnd ∨ s.seq = .pEnd ∨ s.seq = .aEnd) ∧ 5 ≤ nextAnswer s
              ∨ s.seq = .rReq ∧ 256 ≤ nextAnswer s ∨ s.seq = .rAvail ∧ 2 ≤ nextAnswer s
              ∨ s.seq = .rByte ∧ 256 ≤ nextAnswer s))))
    ∧ ∀ (s : State) (reason : EngineFault), s.seq = .fault reason →
      (∀ t, step s = .next t → s.inbox.head? ≠ some .reset → t.seq = .fault reason ∧ KeepsStatus s t)
        ∧ (∀ r, fetch s = some r → ∃ t, step s = .next t ∧ t.hist = s.hist ++ [.refused r.cmd])
        ∧ (s.inbox.head? = some .reset → ∃ t, step s = .next t ∧ t.seq = .idle)

/-- R187, R33: a command ends by finish and in no other way: where BUSY goes from 1 to 0 without a reset, Done(r) is the last event,
RESULT is r and STATE is IDLE. -/
def Obligations.CommandsEndByFinish : Prop :=
  ∀ s t : State, step s = .next t → s.inbox.head? ≠ some .reset → s.busy = true → t.busy = false →
    ∃ r events, t.hist = s.hist ++ events ++ [.done r] ∧ t.result = r ∧ t.resultValid = true ∧ t.seq = .idle

/-- R180: which results a running command can finish with, by family (the table's last column). -/
def Obligations.ResultsByFamily : Prop :=
  ∀ s t : State, EngineInv s → hostQuiet s = true → step s = .next t → t.seq = .idle →
    (inWrite s.seq = true → t.result ≠ .exceedRomCapacity ∧ t.result ≠ .unexpectedDataLength
        ∧ (t.result = .timeout → s.settle = 0#32))
      ∧ (inRead s.seq = true → t.result = .success ∨ t.result = .unexpectedDataLength ∨ t.result = .timeout)
      ∧ (inAddr s.seq = true → t.result ≠ .exceedRomCapacity ∧ t.result ≠ .unexpectedDataLength ∧ t.result ≠ .timeout)

/-- R33: RESULT is the code of the last command that finished: every step keeps that. -/
def Obligations.ResultIsTheLastDone : Prop :=
  ∀ s t : State, ResultInv s → step s = .next t → ResultInv t

/-- R33: every accepted Issue gets exactly one Done, and the running command's is still to come: every step keeps that. -/
def Obligations.OneDoneForEachIssue : Prop :=
  ∀ s t : State, BalanceInv s → step s = .next t → BalanceInv t

/-! ## Reset and the host's reads -/

/-- R36, R200: after reset STATE is IDLE, BUSY is 0, HIST is empty, and CURSOR and RESULT are marked as holding no value. -/
def Obligations.ResetState : Prop :=
  State.reset.seq = .idle ∧ State.reset.seq.code = 0#5 ∧ State.reset.busy = false ∧ State.reset.hist = []
    ∧ State.reset.cursorLoaded = false ∧ State.reset.resultValid = false

/-- R200, R201: a reset in any state, FAULT and a running command among them, leaves the engine as reset, records no Done, and touches
neither TIME (but to let it go by) nor the parameters nor the host's later moves. -/
def Obligations.ResetFromAnyState : Prop :=
  ∀ (s : State) (rest : List HostMove), s.inbox = .reset :: rest →
    ∃ t, step s = .next t ∧ s.time ≤ t.time
      ∧ t = { State.reset with
          params := s.params, time := t.time, answers := s.answers, delays := t.delays, draws := s.draws,
          ticks := t.ticks, inbox := rest }

/-- The host's reads (R33, R36, R187, R189; that they are moves of their own is the model's choice, log 15). STATUS.BUSY may be read at
any time. STATUS with its RESULT is answered once RESULT holds a value, and CURSOR once it holds one; before that the read faults.
CURSOR, BPTR and BUF may be read between commands only, and a byte of BUF only below BUFLEN. A read changes no register. -/
def Obligations.HostReadsOfEveryRegister : Prop :=
  ∀ (s : State) (rest : List HostMove) (reg : HostReg), s.inbox = .read reg :: rest →
    let answered (n : Nat) :=
      ∃ t, step s = .next t
        ∧ t = { s with reply := .value n, inbox := rest, time := t.time, delays := t.delays, ticks := t.ticks }
    match reg with
    | .status =>
      if s.resultValid then answered ((if s.busy then 8 else 0) + s.result.code.toNat)
      else step s = .fault (.registerHasNoValue .status)
    | .busy => answered (if s.busy then 1 else 0)
    | .cursor =>
      if s.busy then step s = .fault (.hostTouchedWhileBusy .cursor)
      else if s.cursorLoaded then answered s.cursor.toNat
      else step s = .fault (.registerHasNoValue .cursor)
    | .bptr => if s.busy then step s = .fault (.hostTouchedWhileBusy .bptr) else answered s.bptr.toNat
    | .bufByte i =>
      if s.busy then step s = .fault (.hostTouchedWhileBusy (.bufByte i))
      else if i < s.bufLen then answered (Memory.read s.buf i).toNat
      else step s = .fault (.hostReadOutsideBuffer i)

/-! ## The whole machine -/

/-- The engine's invariant (spec/10_state.md R26 to R33, spec/40_write.md R108, spec/42_read.md R140) is kept by every step from
every state. -/
def Obligations.EveryStepKeepsTheInvariant : Prop :=
  ∀ s t : State, EngineInv s → step s = .next t → EngineInv t

/-- R102, R105, R121, R52, R57: every step from every state keeps what the open transaction has put on the bus: Begin(BUS), CURSOR high
byte first, and in a data chunk the bytes of BUF from index BPTR on, in order, as many as CIDX counts. -/
def Obligations.EveryStepKeepsTheTransaction : Prop :=
  ∀ s t : State, EngineInv s → TransactionInv s → step s = .next t → TransactionInv t

/-- The invariants hold at reset. -/
def Obligations.ResetMeetsTheInvariants : Prop :=
  EngineInv State.reset ∧ TransactionInv State.reset ∧ ResultInv State.reset ∧ BalanceInv State.reset

/-- R190: (a) every reading a step records is TIME mod 2^32 at a moment of the step; (b, c, d) a step advances TIME by what its sleep must,
and by the amount ≥ 0 that the environment draws; (e) in every infinite run TIME grows without bound. -/
def Obligations.TimeObeysTheClockRules : Prop :=
  (∀ s t : State, step s = .next t →
      let events := t.hist.drop s.hist.length
      t.time = s.time + slept events + nextDelay s
        ∧ ∀ v, Event.ms v ∈ events → ∃ r, s.time ≤ r ∧ r ≤ t.time ∧ v = BitVec.ofNat 32 r)
    ∧ ∀ run : Nat → State, (∀ n, step (run n) = .next (run (n + 1))) → ∀ bound, ∃ n, bound < (run n).time

/-- R35: HIST only grows, but for a reset. -/
def Obligations.HistoryOnlyGrows : Prop :=
  ∀ s t : State, step s = .next t → s.inbox.head? ≠ some .reset → s.hist <+: t.hist

/-- R5: no step changes READ_CAP, SIZEOF_F64 or HOST_ORDER. -/
def Obligations.ParametersNeverChange : Prop :=
  ∀ s t : State, step s = .next t → t.params = s.params

/-- R108 a (which the spec derives from R100 to R106): a data chunk has 1 to PAGE bytes, crosses no page boundary and stays within the
device. -/
def Obligations.NoChunkCrossesAPage : Prop :=
  ∀ s : State, EngineInv s → inDataChunk s.seq = true →
    1 ≤ s.chunk.toNat ∧ s.chunk.toNat ≤ Config.PAGE
      ∧ s.cursor.toNat / Config.PAGE = (s.cursor.toNat + s.chunk.toNat - 1) / Config.PAGE
      ∧ s.cursor.toNat + s.chunk.toNat ≤ Config.CAPACITY

/-- R108 c (derived by the spec): every chunk but the first of a write starts on a page boundary. -/
def Obligations.LaterChunksStartOnAPage : Prop :=
  ∀ s t : State, EngineInv s → hostQuiet s = true → inPoll s.seq = true ∨ s.seq = .wSettle → step s = .next t →
    t.seq = .wBegin → t.cursor.toNat % Config.PAGE = 0

/-- R140 a (derived by the spec): whatever the step, a read request it makes asks for 1 to READ_CAP bytes. -/
def Obligations.RequestsAreWithinReadCap : Prop :=
  ∀ s t : State, EngineInv s → step s = .next t →
    ∀ (a n m : Byte), Event.req a n m ∈ t.hist.drop s.hist.length →
      1 ≤ n.toNat ∧ n.toNat ≤ s.params.readCap

/-- R108 e, R140 c (derived by the spec): a write or buffered read that finishes Success has moved every byte. -/
def Obligations.SuccessMeansEveryByteMoved : Prop :=
  ∀ s t : State, EngineInv s → hostQuiet s = true → inWrite s.seq = true ∨ inRead s.seq = true → step s = .next t →
    t.seq = .idle → t.result = .success → t.bptr.toNat = t.bytelen.toNat ∧ t.rem.toNat = 0

/-- R140 d (derived by the spec): on UnexpectedDataLength BPTR is a multiple of READ_CAP. -/
def Obligations.UnexpectedLengthAtAMultipleOfReadCap : Prop :=
  ∀ s t : State, EngineInv s → hostQuiet s = true → inRead s.seq = true → step s = .next t →
    t.seq = .idle → t.result = .unexpectedDataLength → t.bptr.toNat % t.params.readCap = 0

/-- R108 e, R140 c (derived by the spec): CURSOR − BPTR modulo 2^16, the cursor at issue, is the same before and after every step of
a write or buffered read. -/
def Obligations.CursorAdvancesWithBptr : Prop :=
  ∀ s t : State, hostQuiet s = true → inWrite s.seq = true ∨ inRead s.seq = true → step s = .next t →
    t.cursor - t.bptr.setWidth 16 = s.cursor - s.bptr.setWidth 16

/-- R8, R57: HOST_ORDER takes no part in any step: two machines that differ in it only take the same step. -/
def Obligations.HostOrderTakesNoPart : Prop :=
  ∀ (s t : State) (o : Config.HostOrder), step s = .next t →
    step { s with params := { s.params with hostOrder := o } }
      = .next { t with params := { t.params with hostOrder := o } }

/-- R111 (derived by the spec), for every command: the bytes of the buffer steer nothing. Two runs that differ in them keep to one
sequence of states, and to one sequence of events but for the data bytes: a step adds the same events in both, the device offsets among
them, unless it is the W_DATA step that sends a data byte. Only the host's own reads of buffer bytes are left out. -/
def Obligations.DataNeverSteersTheEngine : Prop :=
  ∀ s s' t : State, SameButData s s' → (∀ i, s.inbox.head? ≠ some (.read (.bufByte i))) → step s = .next t →
    ∃ t', step s' = .next t' ∧ SameButData t t'
      ∧ (s.seq ≠ .wData → t'.hist.drop s'.hist.length = t.hist.drop s.hist.length)

/-! ## Whole commands -/

/-- R120, R121, R187: ADDR from its issue to Done, for every cursor and every close status: five steps, four bus events, CURSOR as
issued, BPTR 0. -/
def Obligations.AddrRunsToCompletion : Prop :=
  ∀ (bus : Byte) (s : State) (r : IssueReq) (later : List HostMove) (raw : Nat) (rest : List Nat) (status : TxStatus),
    Accepted .unused r s → decode r.cmd = some (.addr bus) → s.inbox = .call r :: later → onlyCalls later = true →
    s.answers = raw :: rest → TxStatus.ofRaw raw = some status →
    let c := issuedCursor r s
    ∃ t, Sys2Proof.core.run 5 s = .next t
      ∧ Finished (resultOf status)
          [.issue r.cmd r.cur r.len r.settle (lentBytes .unused r).length, .begin bus, .wr (c.extractLsb' 8 8),
            .wr (c.extractLsb' 0 8), .endTx status] s t
      ∧ t.cursor = c ∧ t.bptr = 0#17 ∧ t.answers = rest ∧ t.inbox = later

/-- R121, R136, R138, R170 to R177, R211: a seek within the device, from its issue to Done, for every element type and close status: the offset
sent is the advanced CURSOR, and CURSOR stays advanced whatever the status. -/
def Obligations.SeekRunsToCompletion : Prop :=
  ∀ (ty : ElemType) (bus : Byte) (s : State) (r : IssueReq) (later : List HostMove) (raw : Nat) (rest : List Nat)
    (status : TxStatus),
    Accepted .null r s → decode r.cmd = some (.seek ty bus) → s.inbox = .call r :: later → onlyCalls later = true →
    s.answers = raw :: rest → TxStatus.ofRaw raw = some status →
    (issuedCursor r s).toNat + issuedLength ty r s ≤ Config.CAPACITY →
    let c : Offset := BitVec.ofNat 16 ((issuedCursor r s).toNat + issuedLength ty r s)
    ∃ t, Sys2Proof.core.run 5 s = .next t
      ∧ Finished (resultOf status)
          [.issue r.cmd r.cur r.len r.settle 0, .begin bus, .wr (c.extractLsb' 8 8), .wr (c.extractLsb' 0 8),
            .endTx status] s t
      ∧ t.cursor = c ∧ t.bptr = 0#17 ∧ t.bufLen = 0 ∧ t.buf = [] ∧ t.answers = rest ∧ t.inbox = later

/-- R109, R108 b and d, R211: WRITE.T with SETTLE > 0 and every close OK runs to Success in 1 + n + 5k steps, where n is the byte
length and k the number of chunks, with exactly the events of R109's routine, for every element type. -/
def Obligations.SettledWriteRunsToCompletion : Prop :=
  ∀ (ty : ElemType) (bus : Byte) (s : State) (r : IssueReq) (later : List HostMove) (bytes : LentBuffer)
    (rest : List Nat),
    Accepted .needed r s → decode r.cmd = some (.write ty bus) → s.inbox = .call r :: later → onlyCalls later = true →
    r.buf = some bytes → r.settle.toNat > 0 →
    let c := (issuedCursor r s).toNat
    let n := issuedLength ty r s
    let k := (c % Config.PAGE + n + (Config.PAGE - 1)) / Config.PAGE
    0 < n → n ≤ bytes.val.length → c + n ≤ Config.CAPACITY → s.answers = List.replicate k 0 ++ rest →
    ∃ t, Sys2Proof.core.run (1 + n + 5 * k) s = .next t
      ∧ Finished .success
          (.issue r.cmd r.cur r.len r.settle bytes.val.length
            :: settledWriteEvents bus r.settle (Memory.ofBytes bytes.val) (chunkSizes k c n) c 0) s t
      ∧ t.cursor.toNat = (c + n) % 65536 ∧ t.bptr.toNat = n ∧ t.answers = rest ∧ t.inbox = later

/-- R137, R140 b and c, R211: READ.T whose every request is answered fully and whose every byte is there at once runs to Success in
1 + 2k + 3n steps, where n is the byte length and k the number of requests; the bytes received are those the transport gave, they lie
in BUF in order, and the bytes of BUF above them are as lent. -/
def Obligations.FullReadRunsToCompletion : Prop :=
  ∀ (ty : ElemType) (bus : Byte) (s : State) (r : IssueReq) (later : List HostMove) (bytes : LentBuffer)
    (ds : List Byte) (rest : List Nat),
    Accepted .needed r s → decode r.cmd = some (.read ty bus) → s.inbox = .call r :: later → onlyCalls later = true →
    r.buf = some bytes →
    let c := (issuedCursor r s).toNat
    let n := issuedLength ty r s
    let cap := s.params.readCap
    0 < n → n ≤ bytes.val.length → ds.length = n → c + n ≤ Config.CAPACITY →
    s.answers = fullReadAnswers cap n ds ++ rest →
    ∃ t, Sys2Proof.core.run (1 + 2 * ((n + (cap - 1)) / cap) + 3 * n) s = .next t
      ∧ t.seq = .idle ∧ t.busy = false ∧ t.result = .success ∧ t.resultValid = true
      ∧ receivedBytes t.hist = receivedBytes s.hist ++ ds
      ∧ (∀ a, Memory.read t.buf a = if a < n then ds.getD a 0#8 else bytes.val.getD a 0#8)
      ∧ t.cursor.toNat = (c + n) % 65536 ∧ t.bptr.toNat = n ∧ t.answers = rest ∧ t.inbox = later

/-- R107 (derived by the spec): a poll whose every probe fails, over less than 2^32 ms, finishes with Timeout after at most 21 probes,
that is within 127 steps. -/
def Obligations.FailingPollTimesOut : Prop :=
  ∀ s : State, s.seq = .wPmark → onlyCalls s.inbox = true →
    21 ≤ s.answers.length → (∀ a ∈ s.answers, 1 ≤ a ∧ a ≤ 4) →
    127 ≤ s.delays.length → (s.delays.take 127).sum + 21 < 2 ^ 32 →
    ∃ k t, k ≤ 127 ∧ Sys2Proof.core.run k s = .next t ∧ t.seq = .idle ∧ t.result = .timeout
      ∧ KeepsProgress s t ∧ closeCount t.hist ≤ closeCount s.hist + 21
end

