-- ==== Sys2Proof/Laws/Memory.lean ====
section
/-! SUPPORT. The laws of the transfer buffer: a read after a write, and that every operation keeps the canonical form and the bound
on the indexes. -/

namespace Sys2Proof.Machine

/-! ### The canonical form -/

theorem Memory.wfFrom_mono {lo hi : Nat} (h : lo ≤ hi) :
    ∀ {m : Memory}, Memory.wfFrom hi m = true → Memory.wfFrom lo m = true
  | [], _ => rfl
  | (k, v) :: rest, hw => by
    simp only [Memory.wfFrom, Bool.and_eq_true, decide_eq_true_eq, bne_iff_ne] at hw ⊢
    exact ⟨⟨h.trans hw.1.1, hw.1.2⟩, hw.2⟩

theorem Memory.write_wfFrom (a : Nat) (b : Byte) :
    ∀ (m : Memory) (lo : Nat), lo ≤ a → Memory.wfFrom lo m = true →
      Memory.wfFrom lo (Memory.write m a b) = true
  | [], lo, hlo, _ => by
    by_cases hb : b = 0#8 <;> simp [Memory.write, Memory.wfFrom, hb, hlo]
  | (k, v) :: rest, lo, hlo, hw => by
    simp only [Memory.wfFrom, Bool.and_eq_true, decide_eq_true_eq, bne_iff_ne] at hw
    obtain ⟨⟨hk, hv⟩, hrest⟩ := hw
    by_cases hb : b = 0#8
    · by_cases h1 : a < k
      · simp [Memory.write, hb, h1, Memory.wfFrom, hk, hv, hrest]
      · by_cases h2 : a = k
        · simp [Memory.write, hb, h2]
          exact Memory.wfFrom_mono (by omega) hrest
        · have ih := Memory.write_wfFrom a b rest (k + 1) (by omega) hrest
          simp [Memory.write, h1, h2, Memory.wfFrom, hk, hv, ih]
    · by_cases h1 : a < k
      · simp [Memory.write, hb, h1, Memory.wfFrom, hlo, hv, hrest, Nat.succ_le_of_lt h1]
      · by_cases h2 : a = k
        · simp [Memory.write, hb, h2, Memory.wfFrom, hk, hrest]
        · have ih := Memory.write_wfFrom a b rest (k + 1) (by omega) hrest
          simp [Memory.write, h1, h2, Memory.wfFrom, hk, hv, ih]

theorem Memory.write_wf (m : Memory) (a : Nat) (b : Byte) (h : Memory.wf m = true) :
    Memory.wf (Memory.write m a b) = true :=
  Memory.write_wfFrom a b m 0 (Nat.zero_le a) h

theorem Memory.ofBytesFrom_wf : ∀ (bytes : List Byte) (i : Nat),
    Memory.wfFrom i (Memory.ofBytesFrom i bytes) = true
  | [], _ => rfl
  | b :: rest, i => by
    have ih := Memory.ofBytesFrom_wf rest (i + 1)
    by_cases hb : b = 0#8
    · simp [Memory.ofBytesFrom, hb, Memory.wfFrom_mono (Nat.le_succ i) ih]
    · simp [Memory.ofBytesFrom, hb, Memory.wfFrom, ih]

theorem Memory.ofBytes_wf (bytes : List Byte) : Memory.wf (Memory.ofBytes bytes) = true :=
  Memory.ofBytesFrom_wf bytes 0

theorem State.reset_buf_wf : Memory.wf State.reset.buf = true := rfl

/-! ### The indexes listed -/

theorem Memory.mem_write {m : Memory} {a : Nat} {b : Byte} {cell : Host.Cell}
    (h : cell ∈ Memory.write m a b) : cell.1 = a ∨ cell ∈ m := by
  induction m with
  | nil =>
    by_cases hb : b = 0#8
    · simp [Memory.write, hb] at h
    · simp [Memory.write, hb] at h
      simp [h]
  | cons c rest ih =>
    obtain ⟨k, v⟩ := c
    unfold Memory.write at h
    split_ifs at h
    · exact .inr h
    · rcases List.mem_cons.1 h with h | h
      · exact .inl (by simp [h])
      · exact .inr h
    · exact .inr (List.mem_cons_of_mem _ h)
    · rcases List.mem_cons.1 h with h | h
      · exact .inl (by simp [h])
      · exact .inr (List.mem_cons_of_mem _ h)
    · rcases List.mem_cons.1 h with h | h
      · exact .inr (by simp [h])
      · exact (ih h).imp id (List.mem_cons_of_mem _)

theorem Memory.mem_ofBytesFrom {bytes : List Byte} {i : Nat} {cell : Host.Cell}
    (h : cell ∈ Memory.ofBytesFrom i bytes) : cell.1 < i + bytes.length := by
  induction bytes generalizing i with
  | nil => simp [Memory.ofBytesFrom] at h
  | cons b rest ih =>
    unfold Memory.ofBytesFrom at h
    split_ifs at h
    · have := ih h
      simp only [List.length_cons]
      omega
    · rcases List.mem_cons.1 h with h | h
      · simp [h]
      · have := ih h
        simp only [List.length_cons]
        omega

theorem Memory.mem_ofBytes {bytes : List Byte} {cell : Host.Cell}
    (h : cell ∈ Memory.ofBytes bytes) : cell.1 < bytes.length := by
  simpa using Memory.mem_ofBytesFrom h

/-! ### Reads -/

theorem Memory.read_below {m : Memory} {lo a : Nat} (h : Memory.wfFrom lo m = true) (ha : a < lo) :
    Memory.read m a = 0#8 := by
  induction m generalizing lo with
  | nil => rfl
  | cons c rest ih =>
    obtain ⟨k, v⟩ := c
    simp only [Memory.wfFrom, Bool.and_eq_true, decide_eq_true_eq, bne_iff_ne] at h
    have hne : a ≠ k := by omega
    simp only [Memory.read, if_neg hne]
    exact ih h.2 (by omega)

theorem Memory.read_write_from (a x : Nat) (b : Byte) :
    ∀ (m : Memory) (lo : Nat), Memory.wfFrom lo m = true →
      Memory.read (Memory.write m a b) x = if x = a then b else Memory.read m x
  | [], _, _ => by
    by_cases hb : b = 0#8 <;> by_cases hx : x = a <;> simp [Memory.write, Memory.read, hb, hx]
  | (k, v) :: rest, lo, h => by
    simp only [Memory.wfFrom, Bool.and_eq_true, decide_eq_true_eq, bne_iff_ne] at h
    obtain ⟨-, hrest⟩ := h
    have ih := Memory.read_write_from a x b rest (k + 1) hrest
    have hlow : a ≤ k → Memory.read rest a = 0#8 := fun e => Memory.read_below hrest (by omega)
    rcases Nat.lt_trichotomy a k with h1 | h1 | h1
    · have hne : a ≠ k := by omega
      by_cases hb : b = 0#8 <;> by_cases hx : x = a <;>
        simp [Memory.write, Memory.read, h1, hb, hx, hne, hlow h1.le]
    · subst h1
      by_cases hb : b = 0#8 <;> by_cases hx : x = a <;>
        simp [Memory.write, Memory.read, hb, hx, hlow le_rfl]
    · have h2 : ¬ a < k := by omega
      have h3 : a ≠ k := by omega
      by_cases hx : x = k
      · subst hx
        simp [Memory.write, Memory.read, h2, h3, Ne.symm h3]
      · simp [Memory.write, Memory.read, h2, h3, hx, ih]

/-- A read after a write: the byte written at its index, and every other byte as before. -/
theorem Memory.read_write (m : Memory) (a x : Nat) (b : Byte) (h : Memory.wf m = true) :
    Memory.read (Memory.write m a b) x = if x = a then b else Memory.read m x :=
  Memory.read_write_from a x b m 0 h

theorem Memory.read_ofBytesFrom : ∀ (bytes : List Byte) (i x : Nat), i ≤ x →
    Memory.read (Memory.ofBytesFrom i bytes) x = bytes.getD (x - i) 0#8
  | [], _, _, _ => rfl
  | b :: rest, i, x, hx => by
    have hb0 : x = i → Memory.read (Memory.ofBytesFrom (i + 1) rest) x = 0#8 := fun e =>
      Memory.read_below (Memory.ofBytesFrom_wf rest (i + 1)) (by omega)
    unfold Memory.ofBytesFrom
    by_cases hxi : x = i
    · subst hxi
      split_ifs with hb
      · simp [hb0 rfl, hb]
      · simp [Memory.read]
    · have ih := Memory.read_ofBytesFrom rest (i + 1) x (by omega)
      have hsub : x - i = (x - (i + 1)) + 1 := by omega
      split_ifs with hb
      · simp [ih, hsub]
      · simp [Memory.read, hxi, ih, hsub]

/-- The buffer of a lent byte array holds its bytes. -/
theorem Memory.read_ofBytes (bytes : List Byte) (x : Nat) :
    Memory.read (Memory.ofBytes bytes) x = bytes.getD x 0#8 :=
  Memory.read_ofBytesFrom bytes 0 x (Nat.zero_le x)

end Sys2Proof.Machine
end

