-- ==== Sys2Proof/Laws/State.lean ====
section
/-! SUPPORT. One lemma per field for each of the named updates of State: what it leaves and what it sets. -/

namespace Sys2Proof.Machine

/-! ### advance -/

@[simp] theorem advance_cursor (k : Nat) (s : State) : (advance k s).cursor = s.cursor := by unfold advance; split <;> rfl
@[simp] theorem advance_cursorLoaded (k : Nat) (s : State) : (advance k s).cursorLoaded = s.cursorLoaded := by unfold advance; split <;> rfl
@[simp] theorem advance_len (k : Nat) (s : State) : (advance k s).len = s.len := by unfold advance; split <;> rfl
@[simp] theorem advance_settle (k : Nat) (s : State) : (advance k s).settle = s.settle := by unfold advance; split <;> rfl
@[simp] theorem advance_cmd (k : Nat) (s : State) : (advance k s).cmd = s.cmd := by unfold advance; split <;> rfl
@[simp] theorem advance_buf (k : Nat) (s : State) : (advance k s).buf = s.buf := by unfold advance; split <;> rfl
@[simp] theorem advance_bufLen (k : Nat) (s : State) : (advance k s).bufLen = s.bufLen := by unfold advance; split <;> rfl
@[simp] theorem advance_seq (k : Nat) (s : State) : (advance k s).seq = s.seq := by unfold advance; split <;> rfl
@[simp] theorem advance_rem (k : Nat) (s : State) : (advance k s).rem = s.rem := by unfold advance; split <;> rfl
@[simp] theorem advance_bptr (k : Nat) (s : State) : (advance k s).bptr = s.bptr := by unfold advance; split <;> rfl
@[simp] theorem advance_bytelen (k : Nat) (s : State) : (advance k s).bytelen = s.bytelen := by unfold advance; split <;> rfl
@[simp] theorem advance_chunk (k : Nat) (s : State) : (advance k s).chunk = s.chunk := by unfold advance; split <;> rfl
@[simp] theorem advance_cidx (k : Nat) (s : State) : (advance k s).cidx = s.cidx := by unfold advance; split <;> rfl
@[simp] theorem advance_tmark (k : Nat) (s : State) : (advance k s).tmark = s.tmark := by unfold advance; split <;> rfl
@[simp] theorem advance_result (k : Nat) (s : State) : (advance k s).result = s.result := by unfold advance; split <;> rfl
@[simp] theorem advance_resultValid (k : Nat) (s : State) : (advance k s).resultValid = s.resultValid := by unfold advance; split <;> rfl
@[simp] theorem advance_busy (k : Nat) (s : State) : (advance k s).busy = s.busy := by unfold advance; split <;> rfl
@[simp] theorem advance_hist (k : Nat) (s : State) : (advance k s).hist = s.hist := by unfold advance; split <;> rfl
@[simp] theorem advance_params (k : Nat) (s : State) : (advance k s).params = s.params := by unfold advance; split <;> rfl
@[simp] theorem advance_answers (k : Nat) (s : State) : (advance k s).answers = s.answers := by unfold advance; split <;> rfl
@[simp] theorem advance_draws (k : Nat) (s : State) : (advance k s).draws = s.draws := by unfold advance; split <;> rfl
@[simp] theorem advance_inbox (k : Nat) (s : State) : (advance k s).inbox = s.inbox := by unfold advance; split <;> rfl
@[simp] theorem advance_reply (k : Nat) (s : State) : (advance k s).reply = s.reply := by unfold advance; split <;> rfl

/-! ### dropAnswer -/

@[simp] theorem dropAnswer_cursor (s : State) : (dropAnswer s).cursor = s.cursor := by
  unfold dropAnswer
  split <;> simp_all
@[simp] theorem dropAnswer_cursorLoaded (s : State) : (dropAnswer s).cursorLoaded = s.cursorLoaded := by
  unfold dropAnswer
  split <;> simp_all
@[simp] theorem dropAnswer_len (s : State) : (dropAnswer s).len = s.len := by
  unfold dropAnswer
  split <;> simp_all
@[simp] theorem dropAnswer_settle (s : State) : (dropAnswer s).settle = s.settle := by
  unfold dropAnswer
  split <;> simp_all
@[simp] theorem dropAnswer_cmd (s : State) : (dropAnswer s).cmd = s.cmd := by
  unfold dropAnswer
  split <;> simp_all
@[simp] theorem dropAnswer_buf (s : State) : (dropAnswer s).buf = s.buf := by
  unfold dropAnswer
  split <;> simp_all
@[simp] theorem dropAnswer_bufLen (s : State) : (dropAnswer s).bufLen = s.bufLen := by
  unfold dropAnswer
  split <;> simp_all
@[simp] theorem dropAnswer_seq (s : State) : (dropAnswer s).seq = s.seq := by
  unfold dropAnswer
  split <;> simp_all
@[simp] theorem dropAnswer_rem (s : State) : (dropAnswer s).rem = s.rem := by
  unfold dropAnswer
  split <;> simp_all
@[simp] theorem dropAnswer_bptr (s : State) : (dropAnswer s).bptr = s.bptr := by
  unfold dropAnswer
  split <;> simp_all
@[simp] theorem dropAnswer_bytelen (s : State) : (dropAnswer s).bytelen = s.bytelen := by
  unfold dropAnswer
  split <;> simp_all
@[simp] theorem dropAnswer_chunk (s : State) : (dropAnswer s).chunk = s.chunk := by
  unfold dropAnswer
  split <;> simp_all
@[simp] theorem dropAnswer_cidx (s : State) : (dropAnswer s).cidx = s.cidx := by
  unfold dropAnswer
  split <;> simp_all
@[simp] theorem dropAnswer_tmark (s : State) : (dropAnswer s).tmark = s.tmark := by
  unfold dropAnswer
  split <;> simp_all
@[simp] theorem dropAnswer_result (s : State) : (dropAnswer s).result = s.result := by
  unfold dropAnswer
  split <;> simp_all
@[simp] theorem dropAnswer_resultValid (s : State) : (dropAnswer s).resultValid = s.resultValid := by
  unfold dropAnswer
  split <;> simp_all
@[simp] theorem dropAnswer_busy (s : State) : (dropAnswer s).busy = s.busy := by
  unfold dropAnswer
  split <;> simp_all
@[simp] theorem dropAnswer_hist (s : State) : (dropAnswer s).hist = s.hist := by
  unfold dropAnswer
  split <;> simp_all
@[simp] theorem dropAnswer_params (s : State) : (dropAnswer s).params = s.params := by
  unfold dropAnswer
  split <;> simp_all
@[simp] theorem dropAnswer_time (s : State) : (dropAnswer s).time = s.time := by
  unfold dropAnswer
  split <;> simp_all
@[simp] theorem dropAnswer_answers (s : State) : (dropAnswer s).answers = s.answers.tail := by
  unfold dropAnswer
  split <;> simp_all
@[simp] theorem dropAnswer_delays (s : State) : (dropAnswer s).delays = s.delays := by
  unfold dropAnswer
  split <;> simp_all
@[simp] theorem dropAnswer_ticks (s : State) : (dropAnswer s).ticks = s.ticks := by
  unfold dropAnswer
  split <;> simp_all
@[simp] theorem dropAnswer_inbox (s : State) : (dropAnswer s).inbox = s.inbox := by
  unfold dropAnswer
  split <;> simp_all
@[simp] theorem dropAnswer_reply (s : State) : (dropAnswer s).reply = s.reply := by
  unfold dropAnswer
  split <;> simp_all

/-! ### dropPass -/

@[simp] theorem dropPass_cursor (s : State) : (dropPass s).cursor = s.cursor := by unfold dropPass; split <;> rfl
@[simp] theorem dropPass_cursorLoaded (s : State) : (dropPass s).cursorLoaded = s.cursorLoaded := by unfold dropPass; split <;> rfl
@[simp] theorem dropPass_len (s : State) : (dropPass s).len = s.len := by unfold dropPass; split <;> rfl
@[simp] theorem dropPass_settle (s : State) : (dropPass s).settle = s.settle := by unfold dropPass; split <;> rfl
@[simp] theorem dropPass_cmd (s : State) : (dropPass s).cmd = s.cmd := by unfold dropPass; split <;> rfl
@[simp] theorem dropPass_buf (s : State) : (dropPass s).buf = s.buf := by unfold dropPass; split <;> rfl
@[simp] theorem dropPass_bufLen (s : State) : (dropPass s).bufLen = s.bufLen := by unfold dropPass; split <;> rfl
@[simp] theorem dropPass_seq (s : State) : (dropPass s).seq = s.seq := by unfold dropPass; split <;> rfl
@[simp] theorem dropPass_rem (s : State) : (dropPass s).rem = s.rem := by unfold dropPass; split <;> rfl
@[simp] theorem dropPass_bptr (s : State) : (dropPass s).bptr = s.bptr := by unfold dropPass; split <;> rfl
@[simp] theorem dropPass_bytelen (s : State) : (dropPass s).bytelen = s.bytelen := by unfold dropPass; split <;> rfl
@[simp] theorem dropPass_chunk (s : State) : (dropPass s).chunk = s.chunk := by unfold dropPass; split <;> rfl
@[simp] theorem dropPass_cidx (s : State) : (dropPass s).cidx = s.cidx := by unfold dropPass; split <;> rfl
@[simp] theorem dropPass_tmark (s : State) : (dropPass s).tmark = s.tmark := by unfold dropPass; split <;> rfl
@[simp] theorem dropPass_result (s : State) : (dropPass s).result = s.result := by unfold dropPass; split <;> rfl
@[simp] theorem dropPass_resultValid (s : State) : (dropPass s).resultValid = s.resultValid := by unfold dropPass; split <;> rfl
@[simp] theorem dropPass_busy (s : State) : (dropPass s).busy = s.busy := by unfold dropPass; split <;> rfl
@[simp] theorem dropPass_hist (s : State) : (dropPass s).hist = s.hist := by unfold dropPass; split <;> rfl
@[simp] theorem dropPass_params (s : State) : (dropPass s).params = s.params := by unfold dropPass; split <;> rfl
@[simp] theorem dropPass_time (s : State) : (dropPass s).time = s.time := by unfold dropPass; split <;> rfl
@[simp] theorem dropPass_answers (s : State) : (dropPass s).answers = s.answers := by unfold dropPass; split <;> rfl
@[simp] theorem dropPass_delays (s : State) : (dropPass s).delays = s.delays := by unfold dropPass; split <;> rfl
@[simp] theorem dropPass_draws (s : State) : (dropPass s).draws = s.draws := by unfold dropPass; split <;> rfl
@[simp] theorem dropPass_ticks (s : State) : (dropPass s).ticks = s.ticks := by unfold dropPass; split <;> rfl
@[simp] theorem dropPass_reply (s : State) : (dropPass s).reply = s.reply := by unfold dropPass; split <;> rfl

/-! ### record -/

@[simp] theorem record_cursor (e : Event) (s : State) : (record e s).cursor = s.cursor := rfl
@[simp] theorem record_cursorLoaded (e : Event) (s : State) : (record e s).cursorLoaded = s.cursorLoaded := rfl
@[simp] theorem record_len (e : Event) (s : State) : (record e s).len = s.len := rfl
@[simp] theorem record_settle (e : Event) (s : State) : (record e s).settle = s.settle := rfl
@[simp] theorem record_cmd (e : Event) (s : State) : (record e s).cmd = s.cmd := rfl
@[simp] theorem record_buf (e : Event) (s : State) : (record e s).buf = s.buf := rfl
@[simp] theorem record_bufLen (e : Event) (s : State) : (record e s).bufLen = s.bufLen := rfl
@[simp] theorem record_seq (e : Event) (s : State) : (record e s).seq = s.seq := rfl
@[simp] theorem record_rem (e : Event) (s : State) : (record e s).rem = s.rem := rfl
@[simp] theorem record_bptr (e : Event) (s : State) : (record e s).bptr = s.bptr := rfl
@[simp] theorem record_bytelen (e : Event) (s : State) : (record e s).bytelen = s.bytelen := rfl
@[simp] theorem record_chunk (e : Event) (s : State) : (record e s).chunk = s.chunk := rfl
@[simp] theorem record_cidx (e : Event) (s : State) : (record e s).cidx = s.cidx := rfl
@[simp] theorem record_tmark (e : Event) (s : State) : (record e s).tmark = s.tmark := rfl
@[simp] theorem record_result (e : Event) (s : State) : (record e s).result = s.result := rfl
@[simp] theorem record_resultValid (e : Event) (s : State) : (record e s).resultValid = s.resultValid := rfl
@[simp] theorem record_busy (e : Event) (s : State) : (record e s).busy = s.busy := rfl
@[simp] theorem record_hist (e : Event) (s : State) : (record e s).hist = s.hist ++ [e] := rfl
@[simp] theorem record_params (e : Event) (s : State) : (record e s).params = s.params := rfl
@[simp] theorem record_time (e : Event) (s : State) : (record e s).time = s.time := rfl
@[simp] theorem record_answers (e : Event) (s : State) : (record e s).answers = s.answers := rfl
@[simp] theorem record_delays (e : Event) (s : State) : (record e s).delays = s.delays := rfl
@[simp] theorem record_draws (e : Event) (s : State) : (record e s).draws = s.draws := rfl
@[simp] theorem record_ticks (e : Event) (s : State) : (record e s).ticks = s.ticks := rfl
@[simp] theorem record_inbox (e : Event) (s : State) : (record e s).inbox = s.inbox := rfl
@[simp] theorem record_reply (e : Event) (s : State) : (record e s).reply = s.reply := rfl

/-! ### finish -/

@[simp] theorem finish_cursor (r : ResultCode) (s : State) : (finish r s).cursor = s.cursor := rfl
@[simp] theorem finish_cursorLoaded (r : ResultCode) (s : State) : (finish r s).cursorLoaded = s.cursorLoaded := rfl
@[simp] theorem finish_len (r : ResultCode) (s : State) : (finish r s).len = s.len := rfl
@[simp] theorem finish_settle (r : ResultCode) (s : State) : (finish r s).settle = s.settle := rfl
@[simp] theorem finish_cmd (r : ResultCode) (s : State) : (finish r s).cmd = s.cmd := rfl
@[simp] theorem finish_buf (r : ResultCode) (s : State) : (finish r s).buf = s.buf := rfl
@[simp] theorem finish_bufLen (r : ResultCode) (s : State) : (finish r s).bufLen = s.bufLen := rfl
@[simp] theorem finish_seq (r : ResultCode) (s : State) : (finish r s).seq = .idle := rfl
@[simp] theorem finish_rem (r : ResultCode) (s : State) : (finish r s).rem = s.rem := rfl
@[simp] theorem finish_bptr (r : ResultCode) (s : State) : (finish r s).bptr = s.bptr := rfl
@[simp] theorem finish_bytelen (r : ResultCode) (s : State) : (finish r s).bytelen = s.bytelen := rfl
@[simp] theorem finish_chunk (r : ResultCode) (s : State) : (finish r s).chunk = s.chunk := rfl
@[simp] theorem finish_cidx (r : ResultCode) (s : State) : (finish r s).cidx = s.cidx := rfl
@[simp] theorem finish_tmark (r : ResultCode) (s : State) : (finish r s).tmark = s.tmark := rfl
@[simp] theorem finish_result (r : ResultCode) (s : State) : (finish r s).result = r := rfl
@[simp] theorem finish_resultValid (r : ResultCode) (s : State) : (finish r s).resultValid = true := rfl
@[simp] theorem finish_busy (r : ResultCode) (s : State) : (finish r s).busy = false := rfl
@[simp] theorem finish_hist (r : ResultCode) (s : State) : (finish r s).hist = s.hist ++ [.done r] := rfl
@[simp] theorem finish_params (r : ResultCode) (s : State) : (finish r s).params = s.params := rfl
@[simp] theorem finish_time (r : ResultCode) (s : State) : (finish r s).time = s.time := rfl
@[simp] theorem finish_answers (r : ResultCode) (s : State) : (finish r s).answers = s.answers := rfl
@[simp] theorem finish_delays (r : ResultCode) (s : State) : (finish r s).delays = s.delays := rfl
@[simp] theorem finish_draws (r : ResultCode) (s : State) : (finish r s).draws = s.draws := rfl
@[simp] theorem finish_ticks (r : ResultCode) (s : State) : (finish r s).ticks = s.ticks := rfl
@[simp] theorem finish_inbox (r : ResultCode) (s : State) : (finish r s).inbox = s.inbox := rfl
@[simp] theorem finish_reply (r : ResultCode) (s : State) : (finish r s).reply = s.reply := rfl

/-! ### enterFault -/

@[simp] theorem enterFault_cursor (f : EngineFault) (s : State) : (enterFault f s).cursor = s.cursor := by simp [enterFault]
@[simp] theorem enterFault_cursorLoaded (f : EngineFault) (s : State) : (enterFault f s).cursorLoaded = s.cursorLoaded := by simp [enterFault]
@[simp] theorem enterFault_len (f : EngineFault) (s : State) : (enterFault f s).len = s.len := by simp [enterFault]
@[simp] theorem enterFault_settle (f : EngineFault) (s : State) : (enterFault f s).settle = s.settle := by simp [enterFault]
@[simp] theorem enterFault_cmd (f : EngineFault) (s : State) : (enterFault f s).cmd = s.cmd := by simp [enterFault]
@[simp] theorem enterFault_buf (f : EngineFault) (s : State) : (enterFault f s).buf = s.buf := by simp [enterFault]
@[simp] theorem enterFault_bufLen (f : EngineFault) (s : State) : (enterFault f s).bufLen = s.bufLen := by simp [enterFault]
@[simp] theorem enterFault_seq (f : EngineFault) (s : State) : (enterFault f s).seq = .fault f := by simp [enterFault]
@[simp] theorem enterFault_rem (f : EngineFault) (s : State) : (enterFault f s).rem = s.rem := by simp [enterFault]
@[simp] theorem enterFault_bptr (f : EngineFault) (s : State) : (enterFault f s).bptr = s.bptr := by simp [enterFault]
@[simp] theorem enterFault_bytelen (f : EngineFault) (s : State) : (enterFault f s).bytelen = s.bytelen := by simp [enterFault]
@[simp] theorem enterFault_chunk (f : EngineFault) (s : State) : (enterFault f s).chunk = s.chunk := by simp [enterFault]
@[simp] theorem enterFault_cidx (f : EngineFault) (s : State) : (enterFault f s).cidx = s.cidx := by simp [enterFault]
@[simp] theorem enterFault_tmark (f : EngineFault) (s : State) : (enterFault f s).tmark = s.tmark := by simp [enterFault]
@[simp] theorem enterFault_result (f : EngineFault) (s : State) : (enterFault f s).result = s.result := by simp [enterFault]
@[simp] theorem enterFault_resultValid (f : EngineFault) (s : State) : (enterFault f s).resultValid = s.resultValid := by simp [enterFault]
@[simp] theorem enterFault_busy (f : EngineFault) (s : State) : (enterFault f s).busy = s.busy := by simp [enterFault]
@[simp] theorem enterFault_hist (f : EngineFault) (s : State) : (enterFault f s).hist = s.hist := by simp [enterFault]
@[simp] theorem enterFault_params (f : EngineFault) (s : State) : (enterFault f s).params = s.params := by simp [enterFault]
@[simp] theorem enterFault_answers (f : EngineFault) (s : State) : (enterFault f s).answers = s.answers := by simp [enterFault]
@[simp] theorem enterFault_draws (f : EngineFault) (s : State) : (enterFault f s).draws = s.draws := by simp [enterFault]
@[simp] theorem enterFault_inbox (f : EngineFault) (s : State) : (enterFault f s).inbox = s.inbox := by simp [enterFault]
@[simp] theorem enterFault_reply (f : EngineFault) (s : State) : (enterFault f s).reply = s.reply := by simp [enterFault]

/-! ### txBegin -/

@[simp] theorem txBegin_cursor (a : Byte) (s : State) : (txBegin a s).cursor = s.cursor := by simp [txBegin]
@[simp] theorem txBegin_cursorLoaded (a : Byte) (s : State) : (txBegin a s).cursorLoaded = s.cursorLoaded := by simp [txBegin]
@[simp] theorem txBegin_len (a : Byte) (s : State) : (txBegin a s).len = s.len := by simp [txBegin]
@[simp] theorem txBegin_settle (a : Byte) (s : State) : (txBegin a s).settle = s.settle := by simp [txBegin]
@[simp] theorem txBegin_cmd (a : Byte) (s : State) : (txBegin a s).cmd = s.cmd := by simp [txBegin]
@[simp] theorem txBegin_buf (a : Byte) (s : State) : (txBegin a s).buf = s.buf := by simp [txBegin]
@[simp] theorem txBegin_bufLen (a : Byte) (s : State) : (txBegin a s).bufLen = s.bufLen := by simp [txBegin]
@[simp] theorem txBegin_seq (a : Byte) (s : State) : (txBegin a s).seq = s.seq := by simp [txBegin]
@[simp] theorem txBegin_rem (a : Byte) (s : State) : (txBegin a s).rem = s.rem := by simp [txBegin]
@[simp] theorem txBegin_bptr (a : Byte) (s : State) : (txBegin a s).bptr = s.bptr := by simp [txBegin]
@[simp] theorem txBegin_bytelen (a : Byte) (s : State) : (txBegin a s).bytelen = s.bytelen := by simp [txBegin]
@[simp] theorem txBegin_chunk (a : Byte) (s : State) : (txBegin a s).chunk = s.chunk := by simp [txBegin]
@[simp] theorem txBegin_cidx (a : Byte) (s : State) : (txBegin a s).cidx = s.cidx := by simp [txBegin]
@[simp] theorem txBegin_tmark (a : Byte) (s : State) : (txBegin a s).tmark = s.tmark := by simp [txBegin]
@[simp] theorem txBegin_result (a : Byte) (s : State) : (txBegin a s).result = s.result := by simp [txBegin]
@[simp] theorem txBegin_resultValid (a : Byte) (s : State) : (txBegin a s).resultValid = s.resultValid := by simp [txBegin]
@[simp] theorem txBegin_busy (a : Byte) (s : State) : (txBegin a s).busy = s.busy := by simp [txBegin]
@[simp] theorem txBegin_hist (a : Byte) (s : State) : (txBegin a s).hist = s.hist ++ [.begin a] := by simp [txBegin]
@[simp] theorem txBegin_params (a : Byte) (s : State) : (txBegin a s).params = s.params := by simp [txBegin]
@[simp] theorem txBegin_answers (a : Byte) (s : State) : (txBegin a s).answers = s.answers := by simp [txBegin]
@[simp] theorem txBegin_draws (a : Byte) (s : State) : (txBegin a s).draws = s.draws := by simp [txBegin]
@[simp] theorem txBegin_inbox (a : Byte) (s : State) : (txBegin a s).inbox = s.inbox := by simp [txBegin]
@[simp] theorem txBegin_reply (a : Byte) (s : State) : (txBegin a s).reply = s.reply := by simp [txBegin]

/-! ### txWrite -/

@[simp] theorem txWrite_cursor (b : Byte) (s : State) : (txWrite b s).cursor = s.cursor := by simp [txWrite]
@[simp] theorem txWrite_cursorLoaded (b : Byte) (s : State) : (txWrite b s).cursorLoaded = s.cursorLoaded := by simp [txWrite]
@[simp] theorem txWrite_len (b : Byte) (s : State) : (txWrite b s).len = s.len := by simp [txWrite]
@[simp] theorem txWrite_settle (b : Byte) (s : State) : (txWrite b s).settle = s.settle := by simp [txWrite]
@[simp] theorem txWrite_cmd (b : Byte) (s : State) : (txWrite b s).cmd = s.cmd := by simp [txWrite]
@[simp] theorem txWrite_buf (b : Byte) (s : State) : (txWrite b s).buf = s.buf := by simp [txWrite]
@[simp] theorem txWrite_bufLen (b : Byte) (s : State) : (txWrite b s).bufLen = s.bufLen := by simp [txWrite]
@[simp] theorem txWrite_seq (b : Byte) (s : State) : (txWrite b s).seq = s.seq := by simp [txWrite]
@[simp] theorem txWrite_rem (b : Byte) (s : State) : (txWrite b s).rem = s.rem := by simp [txWrite]
@[simp] theorem txWrite_bptr (b : Byte) (s : State) : (txWrite b s).bptr = s.bptr := by simp [txWrite]
@[simp] theorem txWrite_bytelen (b : Byte) (s : State) : (txWrite b s).bytelen = s.bytelen := by simp [txWrite]
@[simp] theorem txWrite_chunk (b : Byte) (s : State) : (txWrite b s).chunk = s.chunk := by simp [txWrite]
@[simp] theorem txWrite_cidx (b : Byte) (s : State) : (txWrite b s).cidx = s.cidx := by simp [txWrite]
@[simp] theorem txWrite_tmark (b : Byte) (s : State) : (txWrite b s).tmark = s.tmark := by simp [txWrite]
@[simp] theorem txWrite_result (b : Byte) (s : State) : (txWrite b s).result = s.result := by simp [txWrite]
@[simp] theorem txWrite_resultValid (b : Byte) (s : State) : (txWrite b s).resultValid = s.resultValid := by simp [txWrite]
@[simp] theorem txWrite_busy (b : Byte) (s : State) : (txWrite b s).busy = s.busy := by simp [txWrite]
@[simp] theorem txWrite_hist (b : Byte) (s : State) : (txWrite b s).hist = s.hist ++ [.wr b] := by simp [txWrite]
@[simp] theorem txWrite_params (b : Byte) (s : State) : (txWrite b s).params = s.params := by simp [txWrite]
@[simp] theorem txWrite_answers (b : Byte) (s : State) : (txWrite b s).answers = s.answers := by simp [txWrite]
@[simp] theorem txWrite_draws (b : Byte) (s : State) : (txWrite b s).draws = s.draws := by simp [txWrite]
@[simp] theorem txWrite_inbox (b : Byte) (s : State) : (txWrite b s).inbox = s.inbox := by simp [txWrite]
@[simp] theorem txWrite_reply (b : Byte) (s : State) : (txWrite b s).reply = s.reply := by simp [txWrite]

/-! ### clkMillis -/

@[simp] theorem clkMillis_cursor (s : State) : (clkMillis s).cursor = s.cursor := by simp [clkMillis]
@[simp] theorem clkMillis_cursorLoaded (s : State) : (clkMillis s).cursorLoaded = s.cursorLoaded := by simp [clkMillis]
@[simp] theorem clkMillis_len (s : State) : (clkMillis s).len = s.len := by simp [clkMillis]
@[simp] theorem clkMillis_settle (s : State) : (clkMillis s).settle = s.settle := by simp [clkMillis]
@[simp] theorem clkMillis_cmd (s : State) : (clkMillis s).cmd = s.cmd := by simp [clkMillis]
@[simp] theorem clkMillis_buf (s : State) : (clkMillis s).buf = s.buf := by simp [clkMillis]
@[simp] theorem clkMillis_bufLen (s : State) : (clkMillis s).bufLen = s.bufLen := by simp [clkMillis]
@[simp] theorem clkMillis_seq (s : State) : (clkMillis s).seq = s.seq := by simp [clkMillis]
@[simp] theorem clkMillis_rem (s : State) : (clkMillis s).rem = s.rem := by simp [clkMillis]
@[simp] theorem clkMillis_bptr (s : State) : (clkMillis s).bptr = s.bptr := by simp [clkMillis]
@[simp] theorem clkMillis_bytelen (s : State) : (clkMillis s).bytelen = s.bytelen := by simp [clkMillis]
@[simp] theorem clkMillis_chunk (s : State) : (clkMillis s).chunk = s.chunk := by simp [clkMillis]
@[simp] theorem clkMillis_cidx (s : State) : (clkMillis s).cidx = s.cidx := by simp [clkMillis]
@[simp] theorem clkMillis_tmark (s : State) : (clkMillis s).tmark = s.tmark := by simp [clkMillis]
@[simp] theorem clkMillis_result (s : State) : (clkMillis s).result = s.result := by simp [clkMillis]
@[simp] theorem clkMillis_resultValid (s : State) : (clkMillis s).resultValid = s.resultValid := by simp [clkMillis]
@[simp] theorem clkMillis_busy (s : State) : (clkMillis s).busy = s.busy := by simp [clkMillis]
@[simp] theorem clkMillis_hist (s : State) : (clkMillis s).hist = s.hist ++ [.ms (clockReading s)] := by simp [clkMillis]
@[simp] theorem clkMillis_params (s : State) : (clkMillis s).params = s.params := by simp [clkMillis]
@[simp] theorem clkMillis_answers (s : State) : (clkMillis s).answers = s.answers := by simp [clkMillis]
@[simp] theorem clkMillis_draws (s : State) : (clkMillis s).draws = s.draws := by simp [clkMillis]
@[simp] theorem clkMillis_inbox (s : State) : (clkMillis s).inbox = s.inbox := by simp [clkMillis]
@[simp] theorem clkMillis_reply (s : State) : (clkMillis s).reply = s.reply := by simp [clkMillis]

/-! ### clkSleep -/

@[simp] theorem clkSleep_cursor (k : Millis) (s : State) : (clkSleep k s).cursor = s.cursor := by simp [clkSleep]
@[simp] theorem clkSleep_cursorLoaded (k : Millis) (s : State) : (clkSleep k s).cursorLoaded = s.cursorLoaded := by simp [clkSleep]
@[simp] theorem clkSleep_len (k : Millis) (s : State) : (clkSleep k s).len = s.len := by simp [clkSleep]
@[simp] theorem clkSleep_settle (k : Millis) (s : State) : (clkSleep k s).settle = s.settle := by simp [clkSleep]
@[simp] theorem clkSleep_cmd (k : Millis) (s : State) : (clkSleep k s).cmd = s.cmd := by simp [clkSleep]
@[simp] theorem clkSleep_buf (k : Millis) (s : State) : (clkSleep k s).buf = s.buf := by simp [clkSleep]
@[simp] theorem clkSleep_bufLen (k : Millis) (s : State) : (clkSleep k s).bufLen = s.bufLen := by simp [clkSleep]
@[simp] theorem clkSleep_seq (k : Millis) (s : State) : (clkSleep k s).seq = s.seq := by simp [clkSleep]
@[simp] theorem clkSleep_rem (k : Millis) (s : State) : (clkSleep k s).rem = s.rem := by simp [clkSleep]
@[simp] theorem clkSleep_bptr (k : Millis) (s : State) : (clkSleep k s).bptr = s.bptr := by simp [clkSleep]
@[simp] theorem clkSleep_bytelen (k : Millis) (s : State) : (clkSleep k s).bytelen = s.bytelen := by simp [clkSleep]
@[simp] theorem clkSleep_chunk (k : Millis) (s : State) : (clkSleep k s).chunk = s.chunk := by simp [clkSleep]
@[simp] theorem clkSleep_cidx (k : Millis) (s : State) : (clkSleep k s).cidx = s.cidx := by simp [clkSleep]
@[simp] theorem clkSleep_tmark (k : Millis) (s : State) : (clkSleep k s).tmark = s.tmark := by simp [clkSleep]
@[simp] theorem clkSleep_result (k : Millis) (s : State) : (clkSleep k s).result = s.result := by simp [clkSleep]
@[simp] theorem clkSleep_resultValid (k : Millis) (s : State) : (clkSleep k s).resultValid = s.resultValid := by simp [clkSleep]
@[simp] theorem clkSleep_busy (k : Millis) (s : State) : (clkSleep k s).busy = s.busy := by simp [clkSleep]
@[simp] theorem clkSleep_hist (k : Millis) (s : State) : (clkSleep k s).hist = s.hist ++ [.sleep k] := by simp [clkSleep]
@[simp] theorem clkSleep_params (k : Millis) (s : State) : (clkSleep k s).params = s.params := by simp [clkSleep]
@[simp] theorem clkSleep_answers (k : Millis) (s : State) : (clkSleep k s).answers = s.answers := by simp [clkSleep]
@[simp] theorem clkSleep_draws (k : Millis) (s : State) : (clkSleep k s).draws = s.draws := by simp [clkSleep]
@[simp] theorem clkSleep_inbox (k : Millis) (s : State) : (clkSleep k s).inbox = s.inbox := by simp [clkSleep]
@[simp] theorem clkSleep_reply (k : Millis) (s : State) : (clkSleep k s).reply = s.reply := by simp [clkSleep]

/-! ### markTime -/

@[simp] theorem markTime_cursor (s : State) : (markTime s).cursor = s.cursor := by simp [markTime]
@[simp] theorem markTime_cursorLoaded (s : State) : (markTime s).cursorLoaded = s.cursorLoaded := by simp [markTime]
@[simp] theorem markTime_len (s : State) : (markTime s).len = s.len := by simp [markTime]
@[simp] theorem markTime_settle (s : State) : (markTime s).settle = s.settle := by simp [markTime]
@[simp] theorem markTime_cmd (s : State) : (markTime s).cmd = s.cmd := by simp [markTime]
@[simp] theorem markTime_buf (s : State) : (markTime s).buf = s.buf := by simp [markTime]
@[simp] theorem markTime_bufLen (s : State) : (markTime s).bufLen = s.bufLen := by simp [markTime]
@[simp] theorem markTime_seq (s : State) : (markTime s).seq = s.seq := by simp [markTime]
@[simp] theorem markTime_rem (s : State) : (markTime s).rem = s.rem := by simp [markTime]
@[simp] theorem markTime_bptr (s : State) : (markTime s).bptr = s.bptr := by simp [markTime]
@[simp] theorem markTime_bytelen (s : State) : (markTime s).bytelen = s.bytelen := by simp [markTime]
@[simp] theorem markTime_chunk (s : State) : (markTime s).chunk = s.chunk := by simp [markTime]
@[simp] theorem markTime_cidx (s : State) : (markTime s).cidx = s.cidx := by simp [markTime]
@[simp] theorem markTime_tmark (s : State) : (markTime s).tmark = clockReading s := by simp [markTime]
@[simp] theorem markTime_result (s : State) : (markTime s).result = s.result := by simp [markTime]
@[simp] theorem markTime_resultValid (s : State) : (markTime s).resultValid = s.resultValid := by simp [markTime]
@[simp] theorem markTime_busy (s : State) : (markTime s).busy = s.busy := by simp [markTime]
@[simp] theorem markTime_hist (s : State) : (markTime s).hist = s.hist ++ [.ms (clockReading s)] := by simp [markTime]
@[simp] theorem markTime_params (s : State) : (markTime s).params = s.params := by simp [markTime]
@[simp] theorem markTime_answers (s : State) : (markTime s).answers = s.answers := by simp [markTime]
@[simp] theorem markTime_draws (s : State) : (markTime s).draws = s.draws := by simp [markTime]
@[simp] theorem markTime_inbox (s : State) : (markTime s).inbox = s.inbox := by simp [markTime]
@[simp] theorem markTime_reply (s : State) : (markTime s).reply = s.reply := by simp [markTime]

/-! ### TIME -/

/-- By how much a step advances TIME (R190 b, c, d). -/
theorem advance_time_eq (k : Nat) (s : State) : (advance k s).time = s.time + k + nextDelay s := by
  unfold advance
  split <;> rfl

/-- A step that must advance TIME by k does (R190 b, c, d). -/
theorem advance_time (k : Nat) (s : State) : s.time + k ≤ (advance k s).time := by
  rw [advance_time_eq]
  omega

/-- A listed amount is used up; where none is listed the next free one is (R190, log 2). -/
theorem advance_delays (k : Nat) (s : State) :
    (advance k s).delays = s.delays.tail
      ∧ (advance k s).ticks = if s.delays = [] then s.ticks + 1 else s.ticks := by
  unfold advance
  split <;> simp_all

/-- Infinitely many free amounts are above 0 (R190 e). -/
theorem freeDelay_fair (n : Nat) : ∃ m, n ≤ m ∧ 0 < Config.freeDelay m := Config.freeDelays.fair n

/-- Where a delay is listed, TIME advances by exactly k and that delay. -/
theorem advance_time_listed (k d : Nat) (rest : List Nat) (s : State) (h : s.delays = d :: rest) :
    (advance k s).time = s.time + k + d ∧ (advance k s).delays = rest := by
  simp [advance_time_eq, nextDelay, advance_delays, h]

end Sys2Proof.Machine
end

