-- ==== Sys2Proof/Laws/Operations.lean ====
section
/-! SUPPORT. One lemma for each shared operation: everything it can do. -/

namespace Sys2Proof.Machine

/-- TxEnd: its continuation gets the close status of a raw answer within the type, and any other answer is fault(BAD_ANSWER). -/
theorem txEnd_cases (s : State) (k : TxStatus → State → State) :
    (∃ status, TxStatus.ofRaw (nextAnswer s) = some status
        ∧ txEnd s k = k status (advance 0 (record (.endTx status) (dropAnswer s))))
      ∨ (TxStatus.ofRaw (nextAnswer s) = none ∧ txEnd s k = enterFault .badAnswer (dropAnswer s)) := by
  unfold txEnd
  cases h : TxStatus.ofRaw (nextAnswer s) with
  | some status => exact .inl ⟨status, rfl, rfl⟩
  | none => exact .inr ⟨rfl, rfl⟩

/-- A raw answer is within TxStatus exactly when it is below 5 (R13, R191). -/
theorem ofRaw_isSome_iff (n : Nat) : (TxStatus.ofRaw n).isSome = true ↔ n < 5 := by
  rcases n with _ | _ | _ | _ | _ | n <;> simp [TxStatus.ofRaw]

/-- The number of the close status of a raw answer is the answer. -/
theorem ofRaw_code {n : Nat} {status : TxStatus} (h : TxStatus.ofRaw n = some status) : status.code = n := by
  rcases n with _ | _ | _ | _ | _ | n <;> simp [TxStatus.ofRaw] at h <;> subst h <;> rfl

/-- RxRequest. -/
theorem rxRequest_cases (a n : Byte) (s : State) (k : Byte → State → State) :
    (nextAnswer s ≤ 255
        ∧ rxRequest a n s k = k (BitVec.ofNat 8 (nextAnswer s))
            (advance 0 (record (.req a n (BitVec.ofNat 8 (nextAnswer s))) (dropAnswer s))))
      ∨ (255 < nextAnswer s ∧ rxRequest a n s k = enterFault .badAnswer (dropAnswer s)) := by
  unfold rxRequest
  split
  · exact .inl ⟨by assumption, rfl⟩
  · exact .inr ⟨by omega, rfl⟩

/-- RxAvailable. -/
theorem rxAvailable_cases (s : State) (k : Bool → State → State) :
    (nextAnswer s ≤ 1
        ∧ rxAvailable s k = k (nextAnswer s == 1)
            (advance 0 (record (.avail (nextAnswer s == 1)) (dropAnswer s))))
      ∨ (1 < nextAnswer s ∧ rxAvailable s k = enterFault .badAnswer (dropAnswer s)) := by
  unfold rxAvailable
  split
  · exact .inl ⟨by assumption, rfl⟩
  · exact .inr ⟨by omega, rfl⟩

/-- RxRead. -/
theorem rxRead_cases (s : State) (k : Byte → State → State) :
    (nextAnswer s ≤ 255
        ∧ rxRead s k = k (BitVec.ofNat 8 (nextAnswer s))
            (advance 0 (record (.rd (BitVec.ofNat 8 (nextAnswer s))) (dropAnswer s))))
      ∨ (255 < nextAnswer s ∧ rxRead s k = enterFault .badAnswer (dropAnswer s)) := by
  unfold rxRead
  split
  · exact .inl ⟨by assumption, rfl⟩
  · exact .inr ⟨by omega, rfl⟩

/-- NextWriteChunk: Success where nothing is left, and otherwise the chunk of R101. -/
theorem nextWriteChunk_cases (s : State) :
    (s.rem = 0#17 ∧ nextWriteChunk s = finish .success s)
      ∨ (s.rem ≠ 0#17 ∧ nextWriteChunk s =
          { s with
            chunk := BitVec.ofNat 8 (min (bytesToBoundary s) s.rem.toNat), cidx := 0#8, seq := .wBegin }) := by
  unfold nextWriteChunk
  split
  · exact .inl ⟨by assumption, rfl⟩
  · exact .inr ⟨by assumption, rfl⟩

/-- NextReadChunk: Success where nothing is left, and otherwise the chunk of R132. -/
theorem nextReadChunk_cases (s : State) :
    (s.rem = 0#17 ∧ nextReadChunk s = finish .success s)
      ∨ (s.rem ≠ 0#17 ∧ nextReadChunk s =
          { s with
            chunk := BitVec.ofNat 8 (min s.params.readCap s.rem.toNat), cidx := 0#8, seq := .rReq }) := by
  unfold nextReadChunk
  split
  · exact .inl ⟨by assumption, rfl⟩
  · exact .inr ⟨by assumption, rfl⟩

/-- R101: the bytes to the boundary are 1 to PAGE. -/
theorem bytesToBoundary_bounds (s : State) : 1 ≤ bytesToBoundary s ∧ bytesToBoundary s ≤ Config.PAGE := by
  simp only [bytesToBoundary, Config.PAGE]
  omega

/-- R30: BYTELEN holds the exact product. -/
theorem byteLength_toNat (p : Config.Params) (t : ElemType) (len : Count) :
    (byteLength p t len).toNat = len.toNat * width p t := by
  have hw : width p t ≤ 8 := by
    cases t <;> simp [width, sizeofF64]
    split <;> simp
  have hl := len.isLt
  have : len.toNat * width p t ≤ len.toNat * 8 := Nat.mul_le_mul_left _ hw
  simp only [byteLength, BitVec.toNat_ofNat]
  omega

/-- Element k of a typed command has index k × W(T) + j for byte j (R8, R159). -/
theorem elementIndexes_getElem? (p : Config.Params) (t : ElemType) (k j i : Nat) :
    (elementIndexes p t k)[j]? = some i ↔ j < width p t ∧ i = k * width p t + j := by
  by_cases h : j < width p t <;> simp [elementIndexes, h, eq_comm]

/-- The elements of a typed command lie in BUF without gap or overlap (R159). -/
theorem elementIndexes_tile (p : Config.Params) (t : ElemType) (n : Nat) :
    (List.range n).flatMap (elementIndexes p t) = List.range (n * width p t) := by
  induction n with
  | zero => simp
  | succ n ih => simp [List.range_succ, ih, elementIndexes, Nat.succ_mul, List.range_add]

/-- An element of m bytes stands for a number below 256^m. -/
theorem littleValue_lt : ∀ xs : List Byte, littleValue xs < 256 ^ xs.length
  | [] => by simp [littleValue]
  | x :: xs => by
    have := littleValue_lt xs
    have := x.isLt
    simp only [littleValue, List.length_cons, Nat.pow_succ]
    omega

/-- Two elements of one width with one value hold the same bytes. -/
theorem littleValue_injective : ∀ xs ys : List Byte, xs.length = ys.length → littleValue xs = littleValue ys → xs = ys
  | [], [], _, _ => rfl
  | x :: xs, y :: ys, hl, hv => by
    have := x.isLt
    have := y.isLt
    simp only [littleValue] at hv
    have hx : x = y := BitVec.eq_of_toNat_eq (by omega)
    rw [hx, littleValue_injective xs ys (by simpa using hl) (by omega)]

/-- R8: under either HOST_ORDER the bytes of an element and its value determine each other (log 13). -/
theorem elementValue_injective (order : Config.HostOrder) (xs ys : List Byte) (hl : xs.length = ys.length)
    (hv : elementValue order xs = elementValue order ys) : xs = ys := by
  cases order with
  | little => exact littleValue_injective xs ys hl hv
  | big => exact List.reverse_injective (littleValue_injective _ _ (by simpa using hl) hv)

/-- READ_CAP is 1 to 255 (R5). -/
theorem readCap_bounds (p : Config.Params) : 1 ≤ p.readCap ∧ p.readCap ≤ 255 := by
  have := p.readCapLess1.isLt
  simp only [Config.Params.readCap]
  omega

/-- STATE codes name the states: the reason of FAULT apart, two states with one code are one (R26). -/
theorem seq_code_injective {p q : Seq} (h : p.code = q.code) (hp : p.isFault = false) : p = q := by
  cases p <;> cases q <;> simp_all [Seq.code, Seq.isFault]

end Sys2Proof.Machine
end

