-- ==== Sys2Proof/Laws/PerInstr.lean ====
section
/-! SUPPORT. The per-instruction family EncodeDecode: a command's word decodes to the command, whatever its bus address
(spec/30_encoding.md R74, R76). -/

namespace Sys2Proof.Laws.EncodeDecode

/-- Bits [7:0] of a word {BUS, low}. -/
theorem lowByte_append (bus low : Byte) : lowByte (bus ++ low) = low := by
  apply BitVec.eq_of_toNat_eq
  have := bus.isLt
  have := low.isLt
  simp only [lowByte, BitVec.extractLsb'_toNat, BitVec.toNat_append]
  rw [← Nat.shiftLeft_add_eq_or_of_lt low.isLt, Nat.shiftRight_eq_div_pow, Nat.shiftLeft_eq]
  omega

/-- BUS of a word {BUS, low}. -/
theorem busField_append (bus low : Byte) : busField (bus ++ low) = bus := by
  apply BitVec.eq_of_toNat_eq
  have := bus.isLt
  have := low.isLt
  simp only [busField, BitVec.extractLsb'_toNat, BitVec.toNat_append]
  rw [← Nat.shiftLeft_add_eq_or_of_lt low.isLt, Nat.shiftRight_eq_div_pow, Nat.shiftLeft_eq]
  omega

/-- A word decodes by the first row its low byte matches. -/
theorem decode_append (bus low : Byte) (row : OpcodeRow)
    (h : opcodeRows.find? (fun r => r.low == low) = some row) :
    decode (bus ++ low) = some (row.build bus) := by
  simp only [decode, lowByte_append, busField_append, h]

/-- The statement of the family. -/
def Statement (i : Instr) : Prop := i.wf = true → decode (encode i) = some i

theorem writeB (bus : Byte) : Statement (.writeB bus) := fun _ => decode_append bus 0x01 ⟨0x01, .writeB⟩ rfl
theorem addr (bus : Byte) : Statement (.addr bus) := fun _ => decode_append bus 0x03 ⟨0x03, .addr⟩ rfl
theorem readB (bus : Byte) : Statement (.readB bus) := fun _ => decode_append bus 0x02 ⟨0x02, .readB⟩ rfl
theorem readBN (bus : Byte) : Statement (.readBN bus) := fun _ => decode_append bus 0x0A ⟨0x0A, .readBN⟩ rfl
theorem writeU8 (bus : Byte) : Statement (.writeU8 bus) := fun _ => decode_append bus 0x11 ⟨0x11, .writeU8⟩ rfl
theorem writeI8 (bus : Byte) : Statement (.writeI8 bus) := fun _ => decode_append bus 0x21 ⟨0x21, .writeI8⟩ rfl
theorem writeU16 (bus : Byte) : Statement (.writeU16 bus) := fun _ => decode_append bus 0x31 ⟨0x31, .writeU16⟩ rfl
theorem writeI16 (bus : Byte) : Statement (.writeI16 bus) := fun _ => decode_append bus 0x41 ⟨0x41, .writeI16⟩ rfl
theorem writeU32 (bus : Byte) : Statement (.writeU32 bus) := fun _ => decode_append bus 0x51 ⟨0x51, .writeU32⟩ rfl
theorem writeI32 (bus : Byte) : Statement (.writeI32 bus) := fun _ => decode_append bus 0x61 ⟨0x61, .writeI32⟩ rfl
theorem writeF32 (bus : Byte) : Statement (.writeF32 bus) := fun _ => decode_append bus 0x71 ⟨0x71, .writeF32⟩ rfl
theorem writeF64 (bus : Byte) : Statement (.writeF64 bus) := fun _ => decode_append bus 0x81 ⟨0x81, .writeF64⟩ rfl
theorem readU8 (bus : Byte) : Statement (.readU8 bus) := fun _ => decode_append bus 0x12 ⟨0x12, .readU8⟩ rfl
theorem readI8 (bus : Byte) : Statement (.readI8 bus) := fun _ => decode_append bus 0x22 ⟨0x22, .readI8⟩ rfl
theorem readU16 (bus : Byte) : Statement (.readU16 bus) := fun _ => decode_append bus 0x32 ⟨0x32, .readU16⟩ rfl
theorem readI16 (bus : Byte) : Statement (.readI16 bus) := fun _ => decode_append bus 0x42 ⟨0x42, .readI16⟩ rfl
theorem readU32 (bus : Byte) : Statement (.readU32 bus) := fun _ => decode_append bus 0x52 ⟨0x52, .readU32⟩ rfl
theorem readI32 (bus : Byte) : Statement (.readI32 bus) := fun _ => decode_append bus 0x62 ⟨0x62, .readI32⟩ rfl
theorem readF32 (bus : Byte) : Statement (.readF32 bus) := fun _ => decode_append bus 0x72 ⟨0x72, .readF32⟩ rfl
theorem readF64 (bus : Byte) : Statement (.readF64 bus) := fun _ => decode_append bus 0x82 ⟨0x82, .readF64⟩ rfl
theorem readU8N (bus : Byte) : Statement (.readU8N bus) := fun _ => decode_append bus 0x1A ⟨0x1A, .readU8N⟩ rfl
theorem readI8N (bus : Byte) : Statement (.readI8N bus) := fun _ => decode_append bus 0x2A ⟨0x2A, .readI8N⟩ rfl
theorem readU16N (bus : Byte) : Statement (.readU16N bus) := fun _ => decode_append bus 0x3A ⟨0x3A, .readU16N⟩ rfl
theorem readI16N (bus : Byte) : Statement (.readI16N bus) := fun _ => decode_append bus 0x4A ⟨0x4A, .readI16N⟩ rfl
theorem readU32N (bus : Byte) : Statement (.readU32N bus) := fun _ => decode_append bus 0x5A ⟨0x5A, .readU32N⟩ rfl
theorem readI32N (bus : Byte) : Statement (.readI32N bus) := fun _ => decode_append bus 0x6A ⟨0x6A, .readI32N⟩ rfl
theorem readF32N (bus : Byte) : Statement (.readF32N bus) := fun _ => decode_append bus 0x7A ⟨0x7A, .readF32N⟩ rfl
theorem readF64N (bus : Byte) : Statement (.readF64N bus) := fun _ => decode_append bus 0x8A ⟨0x8A, .readF64N⟩ rfl

end Sys2Proof.Laws.EncodeDecode
end

