-- ==== Sys2Proof/Laws/Step.lean ====
section
/-! SUPPORT. What a step can do, said once: the inversion of command, exec and step. -/

namespace Sys2Proof.Machine

open Sys2Proof.Safety

/-- The bus events of two runs of events, one after the other. -/
@[simp] theorem busEvents_append (xs ys : List Event) : busEvents (xs ++ ys) = busEvents xs ++ busEvents ys :=
  List.filter_append ..

/-- The bus events of one event. -/
@[simp] theorem busEvents_single (e : Event) : busEvents [e] = if isBusEvent e then [e] else [] := by
  cases e <;> rfl

/-- No event sleeps in no step. -/
@[simp] theorem slept_nil : slept [] = 0 := rfl

/-- What an event sleeps is added up. -/
@[simp] theorem slept_append (xs ys : List Event) : slept (xs ++ ys) = slept xs + slept ys := by
  simp [slept]

/-- The issue pseudocode of a command. -/
def startOf : Instr → State → State
  | .writeB _ => startWrite .b
  | .addr _ => startAddr
  | .readB _ => startRead .b
  | .readBN _ => startSeek .b
  | .writeU8 _ => startWrite .u8
  | .writeI8 _ => startWrite .i8
  | .writeU16 _ => startWrite .u16
  | .writeI16 _ => startWrite .i16
  | .writeU32 _ => startWrite .u32
  | .writeI32 _ => startWrite .i32
  | .writeF32 _ => startWrite .f32
  | .writeF64 _ => startWrite .f64
  | .readU8 _ => startRead .u8
  | .readI8 _ => startRead .i8
  | .readU16 _ => startRead .u16
  | .readI16 _ => startRead .i16
  | .readU32 _ => startRead .u32
  | .readI32 _ => startRead .i32
  | .readF32 _ => startRead .f32
  | .readF64 _ => startRead .f64
  | .readU8N _ => startSeek .u8
  | .readI8N _ => startSeek .i8
  | .readU16N _ => startSeek .u16
  | .readI16N _ => startSeek .i16
  | .readU32N _ => startSeek .u32
  | .readI32N _ => startSeek .i32
  | .readF32N _ => startSeek .f32
  | .readF64N _ => startSeek .f64

/-- Every command is one step of the shared operation. -/
theorem exec_eq (i : Instr) (s : State) : exec i s = command (encode i) (useOf i) (startOf i) s := by
  cases i <;> rfl

/-- WRITE.T. -/
theorem exec_write (t : ElemType) (bus : Byte) (s : State) :
    exec (.write t bus) s = command (encode (.write t bus)) .needed (startWrite t) s := by
  cases t <;> rfl

/-- READ.T. -/
theorem exec_read (t : ElemType) (bus : Byte) (s : State) :
    exec (.read t bus) s = command (encode (.read t bus)) .needed (startRead t) s := by
  cases t <;> rfl

/-- READ.T.N. -/
theorem exec_seek (t : ElemType) (bus : Byte) (s : State) :
    exec (.seek t bus) s = command (encode (.seek t bus)) .null (startSeek t) s := by
  cases t <;> rfl

/-- An Issue that R186 does not refuse is accepted and its issue pseudocode run. -/
theorem command_accepted {word : CmdWord} {use : BufferUse} {start : State → State} {s : State} {r : IssueReq}
    (hf : fetch s = some r) (hr : refuseReasons true use r s = []) :
    command word use start s = .next (advance 0 (start (accept word use r s))) := by
  simp only [command, hf, hr]

/-- An Issue with a reason of R186 is refused. -/
theorem command_refused {word : CmdWord} {use : BufferUse} {start : State → State} {s : State} {r : IssueReq}
    (hf : fetch s = some r) (hr : refuseReasons true use r s ≠ []) :
    command word use start s = .next (refuse word (refuseReasons true use r s) s) := by
  simp only [command, hf]

/-- Where no Issue lands, a command's step is the sequencer's. -/
theorem command_running {word : CmdWord} {use : BufferUse} {start : State → State} {s : State}
    (hf : fetch s = none) : command word use start s = sequencerStep s := by
  simp only [command, hf]

/-- R186 refuses nothing: IDLE, a cursor, and a buffer where the command needs one. -/
theorem refuseReasons_eq_nil {use : BufferUse} {r : IssueReq} {s : State} :
    refuseReasons true use r s = []
      ↔ s.seq = .idle ∧ (r.cur.isSome = true ∨ s.cursorLoaded = true) ∧ (use = .needed → r.buf.isSome = true) := by
  cases hq : s.seq <;> cases hc : r.cur <;> cases hl : s.cursorLoaded <;> cases use <;> cases hb : r.buf <;>
    simp [refuseReasons, reasonIf, Seq.running, Seq.isFault, hq, hc, hl, hb]

/-- A step of the sequencer that answers a next state performs STATE's primitive. -/
theorem sequencerStep_cases {s t : State} (h : sequencerStep s = .next t) : t = perform (dropPass s) := by
  unfold sequencerStep at h
  split at h
  · cases h
  · cases h; rfl

/-- Everything nextActivity can be. -/
theorem nextActivity_cases (s : State) :
    (s.inbox.head? = some .reset ∧ nextActivity s = .hostReset)
      ∨ (∃ reg, s.inbox.head? = some (.read reg) ∧ nextActivity s = .hostRead reg)
      ∨ (∃ r i, fetch s = some r ∧ decode r.cmd = some i ∧ nextActivity s = .command i)
      ∨ (∃ r, fetch s = some r ∧ decode r.cmd = none ∧ nextActivity s = .reserved r)
      ∨ (fetch s = none ∧ s.seq.running = true ∧ ∃ i, decode s.cmd = some i ∧ nextActivity s = .command i)
      ∨ (fetch s = none ∧ nextActivity s = .sequencer) := by
  unfold nextActivity
  split
  · rename_i rest h
    exact .inl ⟨by simp [h], rfl⟩
  · rename_i reg rest h
    exact .inr (.inl ⟨reg, by simp [h], rfl⟩)
  · cases hf : fetch s with
    | some r =>
      cases hd : decode r.cmd with
      | some i => exact .inr (.inr (.inl ⟨r, i, rfl, hd, by simp [hd]⟩))
      | none => exact .inr (.inr (.inr (.inl ⟨r, rfl, hd, by simp [hd]⟩)))
    | none =>
      unfold runningCommand
      by_cases hq : s.seq.running = true
      · cases hd : decode s.cmd with
        | some i => exact .inr (.inr (.inr (.inr (.inl ⟨rfl, hq, i, rfl, by simp [hq]⟩))))
        | none => exact .inr (.inr (.inr (.inr (.inr ⟨rfl, by simp [hq]⟩))))
      · exact .inr (.inr (.inr (.inr (.inr ⟨rfl, by simp [hq]⟩))))

/-- A host read answers a value. -/
theorem hostRead_cases {reg : HostReg} {s t : State} (h : hostRead reg s = .next t) :
    ∃ n, t = hostAnswered n s := by
  cases reg <;> simp only [hostRead, readValue] at h <;> (try split_ifs at h) <;>
    injection h with h <;> exact ⟨_, h.symm⟩

/-- Everything a step that answers a next state can be. -/
theorem step_cases {s t : State} (h : step s = .next t) :
    (s.inbox.head? = some .reset ∧ t = hostReset s)
      ∨ (∃ reg n, s.inbox.head? = some (.read reg) ∧ t = hostAnswered n s)
      ∨ (∃ word reasons, (fetch s).isSome = true ∧ t = refuse word reasons s)
      ∨ (∃ i r, fetch s = some r ∧ decode r.cmd = some i ∧ refuseReasons true (useOf i) r s = []
          ∧ t = advance 0 (startOf i (accept (encode i) (useOf i) r s)))
      ∨ (fetch s = none ∧ t = perform (dropPass s)) := by
  rcases nextActivity_cases s with ⟨hb, ha⟩ | ⟨reg, hb, ha⟩ | ⟨r, i, hf, hd, ha⟩ | ⟨r, hf, -, ha⟩
      | ⟨hf, -, i, -, ha⟩ | ⟨hf, ha⟩ <;> simp only [step, ha] at h
  · cases h
    exact .inl ⟨hb, rfl⟩
  · obtain ⟨n, rfl⟩ := hostRead_cases h
    exact .inr (.inl ⟨reg, n, hb, rfl⟩)
  · rw [exec_eq] at h
    by_cases hr : refuseReasons true (useOf i) r s = []
    · rw [command_accepted hf hr] at h
      cases h
      exact .inr (.inr (.inr (.inl ⟨i, r, hf, hd, hr, rfl⟩)))
    · rw [command_refused hf hr] at h
      cases h
      exact .inr (.inr (.inl ⟨_, _, by simp [hf], rfl⟩))
  · cases h
    exact .inr (.inr (.inl ⟨_, _, by simp [hf], rfl⟩))
  · rw [exec_eq, command_running hf] at h
    exact .inr (.inr (.inr (.inr ⟨hf, sequencerStep_cases h⟩)))
  · exact .inr (.inr (.inr (.inr ⟨hf, sequencerStep_cases h⟩)))

end Sys2Proof.Machine
end

