-- ==== Sys2Proof/Tests/Slice0.lean ====
section
/-! SUPPORT. Tests of one step each, with results from spec/95_test_vectors.md or worked out from the rules named, and for every
statement with hypotheses a witness that meets them, at the boundaries of its clauses. -/

namespace Sys2Proof.Tests

open Sys2Proof.Machine Sys2Proof.Safety

set_option linter.unusedSimpArgs false

/-! ### Well-formedness: one ill-formed term for each check -/

/-- R71: OP 000 and 111. -/
theorem test_wf_op : WellFormed.opLegal 0x5000 = false ∧ WellFormed.opLegal 0x5007 = false ∧ WellFormed.opLegal 0x5003 = true := by
  decide

/-- R72: N = 1 for a write and for ADDR. -/
theorem test_wf_null :
    WellFormed.nullLegal 0x5009 = false ∧ WellFormed.nullLegal 0x500B = false ∧ WellFormed.nullLegal 0x500A = true := by
  decide

/-- R73: T = 9 for a write, 10 for a read, 1 for ADDR. -/
theorem test_wf_type :
    WellFormed.typeLegal 0x5091 = false ∧ WellFormed.typeLegal 0x50A2 = false ∧ WellFormed.typeLegal 0x5013 = false
      ∧ WellFormed.typeLegal 0x5081 = true := by
  decide

/-- Each check alone rejects a command word. -/
theorem test_wf_word :
    WellFormed.commandWord 0x5000 = false ∧ WellFormed.commandWord 0x5009 = false ∧ WellFormed.commandWord 0x5091 = false
      ∧ WellFormed.commandWord 0xFF8A = true := by
  decide

/-- R25, R185: a lent buffer of 2^20 bytes is too long, and one of 2^20 − 1 is not. -/
theorem test_wf_buffer_length (bytes : List Byte) :
    (bytes.length = 2 ^ 20 → WellFormed.bufferLength bytes = false)
      ∧ (bytes.length = 2 ^ 20 - 1 → WellFormed.bufferLength bytes = true) := by
  constructor <;> intro h <;> simp [WellFormed.bufferLength, h]

/-- R78: a request with a reserved word is ill formed. -/
theorem test_wf_request :
    WellFormed.request ⟨0x5013, some 0, 0, 0, none⟩ = false
      ∧ WellFormed.request ⟨0x5003, none, 0, 0, some ⟨[1#8], rfl⟩⟩ = true := by
  decide

/-! ### Decoding: words written out from R70 and R76, {BUS, T, N, OP} -/

/-- WRITE.T: N = 0, OP = 001. -/
theorem test_decode_write :
    decode 0b01010000_0000_0_001 = some (.writeB 0x50) ∧ decode 0b01010000_0001_0_001 = some (.writeU8 0x50)
      ∧ decode 0b01010000_0010_0_001 = some (.writeI8 0x50) ∧ decode 0b01010000_0011_0_001 = some (.writeU16 0x50)
      ∧ decode 0b01010000_0100_0_001 = some (.writeI16 0x50) ∧ decode 0b01010000_0101_0_001 = some (.writeU32 0x50)
      ∧ decode 0b01010000_0110_0_001 = some (.writeI32 0x50) ∧ decode 0b01010000_0111_0_001 = some (.writeF32 0x50)
      ∧ decode 0b01010000_1000_0_001 = some (.writeF64 0x50) := by
  decide

/-- READ.T: N = 0, OP = 010. -/
theorem test_decode_read :
    decode 0b10100000_0000_0_010 = some (.readB 0xA0) ∧ decode 0b10100000_0001_0_010 = some (.readU8 0xA0)
      ∧ decode 0b10100000_0010_0_010 = some (.readI8 0xA0) ∧ decode 0b10100000_0011_0_010 = some (.readU16 0xA0)
      ∧ decode 0b10100000_0100_0_010 = some (.readI16 0xA0) ∧ decode 0b10100000_0101_0_010 = some (.readU32 0xA0)
      ∧ decode 0b10100000_0110_0_010 = some (.readI32 0xA0) ∧ decode 0b10100000_0111_0_010 = some (.readF32 0xA0)
      ∧ decode 0b10100000_1000_0_010 = some (.readF64 0xA0) := by
  decide

/-- READ.T.N: N = 1, OP = 010. -/
theorem test_decode_seek :
    decode 0b11111111_0000_1_010 = some (.readBN 0xFF) ∧ decode 0b11111111_0001_1_010 = some (.readU8N 0xFF)
      ∧ decode 0b11111111_0010_1_010 = some (.readI8N 0xFF) ∧ decode 0b11111111_0011_1_010 = some (.readU16N 0xFF)
      ∧ decode 0b11111111_0100_1_010 = some (.readI16N 0xFF) ∧ decode 0b11111111_0101_1_010 = some (.readU32N 0xFF)
      ∧ decode 0b11111111_0110_1_010 = some (.readI32N 0xFF) ∧ decode 0b11111111_0111_1_010 = some (.readF32N 0xFF)
      ∧ decode 0b11111111_1000_1_010 = some (.readF64N 0xFF) := by
  decide

/-- ADDR: T = 0, N = 0, OP = 011, at bus addresses 0 and 0x50. -/
theorem test_decode_addr :
    decode 0b00000000_0000_0_011 = some (.addr 0x00) ∧ decode 0b01010000_0000_0_011 = some (.addr 0x50) := by
  decide

/-- The encoder gives the words of V-E1. -/
theorem test_encode :
    encode (.writeB 0x50) = 0x5001 ∧ encode (.readB 0x50) = 0x5002 ∧ encode (.addr 0x50) = 0x5003
      ∧ encode (.readBN 0x50) = 0x500A ∧ encode (.readU32 0xA0) = 0xA052 ∧ encode (.readF64N 0x50) = 0x508A := by
  decide

/-- The low byte of a word decodes by itself, with BUS 0, and a word with a bit above bit 15 does not decode. -/
theorem test_decode_table_word :
    decodeTableWord 8 0x03 = some (.addr 0) ∧ decodeTableWord 16 0x508A = some (.readF64N 0x50)
      ∧ decodeTableWord 16 0x5000 = none ∧ decodeTableWord 24 0x15003 = none := by
  decide

/-! ### Small states -/

/-- READ_CAP = 32, SIZEOF_F64 = 8, as in spec/95_test_vectors.md. -/
def params : Config.Params := { readCapLess1 := 31, sizeofF64 := .eight, hostOrder := .little }

/-- An engine that ran a command before, with an exact clock. -/
def idle : State :=
  { State.reset with
    params := params, delays := [0, 0, 0], cursorLoaded := true, cursor := 60, resultValid := true, hist := [.done .success],
    time := 1000 }

/-- Five bytes to lend. -/
def fiveBytes : LentBuffer := ⟨[0x10, 0x20, 0x30, 0x40, 0x50], rfl⟩

/-- An Issue with a buffer of five bytes. -/
def request (word : CmdWord) (cur len : Nat) : IssueReq :=
  { cmd := word, cur := some (BitVec.ofNat 16 cur), len := BitVec.ofNat 17 len, settle := 5,
    buf := some fiveBytes }

/-- The Issue is the host's next move. -/
def issued (word : CmdWord) (cur len : Nat) : State := { idle with inbox := [.issue (request word cur len)] }

/-- The Issue is the host's next move, as a synchronous call. -/
def called (r : IssueReq) (answers : List Nat) : State := { idle with inbox := [.call r], answers := answers }

/-- WRITE.B of five bytes at 60 in state q, before its first chunk closed. -/
def writing (q : Seq) (cidx : Nat) : State :=
  { idle with
    cmd := 0x5001, len := 5, settle := 5, buf := Memory.ofBytes fiveBytes.val, bufLen := 5,
    bytelen := 5, rem := 5, chunk := 4, cidx := BitVec.ofNat 8 cidx, seq := q, busy := true,
    hist := [.done .success, .issue 0x5001 (some 60) 5 5 5] }

/-- The same write in state q, after its first chunk, with SETTLE = settle and `left` of its last bytes to go. -/
def waiting (q : Seq) (settle left : Nat) : State :=
  { writing q 4 with
    settle := BitVec.ofNat 32 settle, cursor := BitVec.ofNat 16 (65 - left), bptr := BitVec.ofNat 17 (5 - left),
    rem := BitVec.ofNat 17 left, tmark := 980 }

/-- READ.B of five bytes at 60 in state q, with `got` of them received. -/
def reading (q : Seq) (got : Nat) : State :=
  { idle with
    cmd := 0x5002, len := 5, settle := 5, buf := Memory.ofBytes fiveBytes.val, bufLen := 5,
    cursor := BitVec.ofNat 16 (60 + got), bytelen := 5, bptr := BitVec.ofNat 17 got, rem := BitVec.ofNat 17 (5 - got),
    chunk := 5, cidx := BitVec.ofNat 8 got, tmark := 980, seq := q, busy := true,
    hist := [.done .success, .issue 0x5002 (some 60) 5 5 5] }

/-- READ.B.N in state q, at the offset it advanced to. -/
def seeking (q : Seq) : State :=
  { idle with
    cmd := 0x500A, cursor := 0x1234, seq := q, busy := true, hist := [.done .success, .issue 0x500A (some 0x1200) 0x34 5 0] }

/-- A state satisfies a property, or the outcome is no next state and the test fails. -/
def nextIs (o : Host.Outcome State Fault Refusal) (p : State → Bool) : Bool :=
  match o with
  | .next t => p t
  | _ => false

/-! ### The issue steps, one for each command -/

/-- V-W1, L1-1: WRITE.B at 60 opens with a chunk of four bytes. -/
theorem test_writeB_first_chunk :
    nextIs (step (issued 0x5001 60 5)) (fun t => t.seq == .wBegin && t.chunk == 4 && t.rem == 5 && t.bptr == 0) = true := by
  decide

/-- V-W7: 0xFFC0 + 65 exceeds the device, 0xFFC0 + 64 does not. -/
theorem test_writeB_capacity :
    nextIs (step (issued 0x5001 0xFFC0 65)) (fun t => t.result == .exceedRomCapacity && t.cursor == 0xFFC0 && !t.busy) = true
      ∧ nextIs (step (issued 0x5001 0xFFC0 64)) (fun t => t.seq == .wBegin && t.chunk == 64) = true := by
  decide

/-- V-A1, V-A3: ADDR has no capacity check. -/
theorem test_addr_issue :
    nextIs (step (issued 0x5003 0xFFFF 0x1FFFF)) (fun t => t.seq == .aBegin && t.cursor == 0xFFFF && t.bptr == 0) = true := by
  decide

/-- V-R6: READ.B of 33 bytes asks for 32 first, and of no byte succeeds at once. -/
theorem test_readB_issue :
    nextIs (step (issued 0x5002 0 33)) (fun t => t.seq == .rReq && t.chunk == 32) = true
      ∧ nextIs (step (issued 0x5002 0x4000 0)) (fun t => t.seq == .idle && t.result == .success && t.cursor == 0x4000) = true := by
  decide

/-- L1-7: READ.B.N at 100 of 28 sends 128, and no buffer is lent. -/
theorem test_readBN_issue :
    nextIs (step (issued 0x500A 100 28)) (fun t => t.seq == .aBegin && t.cursor == 128 && t.bufLen == 0) = true := by
  decide

/-- R7, R150 to R157: the byte length of three elements of each written type. -/
theorem test_write_widths :
    nextIs (step (issued 0x5011 0 3)) (fun t => t.bytelen == 3) = true
      ∧ nextIs (step (issued 0x5021 0 3)) (fun t => t.bytelen == 3) = true
      ∧ nextIs (step (issued 0x5031 0 3)) (fun t => t.bytelen == 6) = true
      ∧ nextIs (step (issued 0x5041 0 3)) (fun t => t.bytelen == 6) = true
      ∧ nextIs (step (issued 0x5051 0 3)) (fun t => t.bytelen == 12) = true
      ∧ nextIs (step (issued 0x5061 0 3)) (fun t => t.bytelen == 12) = true
      ∧ nextIs (step (issued 0x5071 0 3)) (fun t => t.bytelen == 12) = true
      ∧ nextIs (step (issued 0x5081 0 3)) (fun t => t.bytelen == 24) = true := by
  decide

/-- R7, R160 to R167: the byte length of three elements of each read type. -/
theorem test_read_widths :
    nextIs (step (issued 0x5012 0 3)) (fun t => t.bytelen == 3) = true
      ∧ nextIs (step (issued 0x5022 0 3)) (fun t => t.bytelen == 3) = true
      ∧ nextIs (step (issued 0x5032 0 3)) (fun t => t.bytelen == 6) = true
      ∧ nextIs (step (issued 0x5042 0 3)) (fun t => t.bytelen == 6) = true
      ∧ nextIs (step (issued 0x5052 0 3)) (fun t => t.bytelen == 12) = true
      ∧ nextIs (step (issued 0x5062 0 3)) (fun t => t.bytelen == 12) = true
      ∧ nextIs (step (issued 0x5072 0 3)) (fun t => t.bytelen == 12) = true
      ∧ nextIs (step (issued 0x5082 0 3)) (fun t => t.bytelen == 24) = true := by
  decide

/-- R7, R170 to R177: a seek of three elements of each type advances CURSOR by the byte length. -/
theorem test_seek_widths :
    nextIs (step (issued 0x501A 0 3)) (fun t => t.cursor == 3) = true
      ∧ nextIs (step (issued 0x502A 0 3)) (fun t => t.cursor == 3) = true
      ∧ nextIs (step (issued 0x503A 0 3)) (fun t => t.cursor == 6) = true
      ∧ nextIs (step (issued 0x504A 0 3)) (fun t => t.cursor == 6) = true
      ∧ nextIs (step (issued 0x505A 0 3)) (fun t => t.cursor == 12) = true
      ∧ nextIs (step (issued 0x506A 0 3)) (fun t => t.cursor == 12) = true
      ∧ nextIs (step (issued 0x507A 0 3)) (fun t => t.cursor == 12) = true
      ∧ nextIs (step (issued 0x508A 0 3)) (fun t => t.cursor == 24) = true := by
  decide

/-- R157: an F64 element at 65536 − 8 fits and wraps CURSOR only when it is written; one byte further it does not fit. -/
theorem test_writeF64_edge :
    nextIs (step (issued 0x5081 65528 1)) (fun t => t.seq == .wBegin && t.chunk == 8) = true
      ∧ nextIs (step (issued 0x5081 65529 1)) (fun t => t.result == .exceedRomCapacity) = true := by
  decide

/-- V-E1: 0x5000 is refused and changes nothing but HIST. -/
theorem test_reserved_refused :
    nextIs (step (issued 0x5000 0 1))
      (fun t => t.reply == .refused [.reservedEncoding] && t.hist == [.done .success, .refused 0x5000] && t.cursor == 60) = true := by
  decide

/-! ### The sequences -/

/-- V-W1: the third data byte of the first chunk is BUF[2]. -/
theorem test_wData :
    nextIs (step (writing .wData 2)) (fun t => t.hist.getLast? == some (.wr 0x30) && t.seq == .wData) = true := by
  decide

/-- V-W5: a failed close counts nothing. -/
theorem test_wEnd_nack :
    nextIs (step { writing .wEnd 4 with answers := [3] })
      (fun t => t.result == .nackOnData && t.cursor == 60 && t.bptr == 0 && t.hist.drop 2 == [.endTx .nackData, .done .nackOnData])
      = true := by
  decide

/-- V-W9: BUFLEN = 2 and the third byte. -/
theorem test_wData_oob :
    nextIs (step { writing .wData 2 with bufLen := 2 }) (fun t => t.seq == .fault .bufOob && t.busy && t.hist.length == 2) = true := by
  decide

/-- V-W4 c: the clock wraps, 0x0000000A − 0xFFFFFFF5 = 21. -/
theorem test_wPchk_wraps :
    nextIs (step { waiting .wPchk 0 1 with tmark := 0xFFFFFFF5, time := 0x10000000A }) (fun t => t.result == .timeout) = true
      ∧ nextIs (step { waiting .wPchk 0 1 with tmark := 0xFFFFFFF5, time := 0x100000009 }) (fun t => t.seq == .wPsleep) = true := by
  decide

/-- V-R2: a long count is an error. -/
theorem test_rReq_long :
    nextIs (step { reading .rReq 0 with answers := [6] }) (fun t => t.result == .unexpectedDataLength && t.cursor == 60) = true := by
  decide

/-- V-R4: an elapsed time of 20 is no timeout, one of 21 is. -/
theorem test_rTchk_strict :
    nextIs (step (reading .rTchk 1)) (fun t => t.seq == .rAvail) = true
      ∧ nextIs (step { reading .rTchk 1 with time := 1001 }) (fun t => t.result == .timeout && t.bptr == 1) = true := by
  decide

/-- V-W10: a close status of 5 is BAD_ANSWER. -/
theorem test_bad_answer :
    nextIs (step { writing .wEnd 4 with answers := [5] }) (fun t => t.seq == .fault .badAnswer && t.busy) = true := by
  decide

/-- R37, R201: a reset in the middle of a write. -/
theorem test_reset_mid_write :
    nextIs (step { writing .wData 2 with inbox := [.reset] })
      (fun t => t.seq == .idle && !t.busy && t.hist == [] && !t.cursorLoaded && t.time == 1000) = true := by
  decide

/-- The word placed by withFetchWord is the one the next step issues. -/
theorem test_withFetchWord :
    nextIs (step (idle.withFetchWord 16 0x5003)) (fun t => t.cmd == 0x5003 && t.seq == .aBegin) = true
      ∧ nextIs (step (idle.withFetchWord 8 0x01)) (fun t => t.cmd == 0x0001 && t.result == .success && !t.busy) = true := by
  decide

/-! ### Witnesses: states and operands that meet a statement's hypotheses -/

/-- The invariant holds in every state of the write, the read and the seek above, and in FAULT. -/
theorem engineInv_writing :
    EngineInv (writing .wBegin 0) ∧ EngineInv (writing .wAhi 0) ∧ EngineInv (writing .wAlo 0) ∧ EngineInv (writing .wData 0)
      ∧ EngineInv (writing .wData 3) ∧ EngineInv (writing .wEnd 4) := by
  refine ⟨?_, ?_, ?_, ?_, ?_, ?_⟩ <;> refine ⟨?_, ?_, ?_, ?_, ?_, ?_, ?_, ?_⟩ <;>
    (try simp only [BufferInv, StatusInv, CommandInv, ProgressInv, DataChunkInv, WaitInv, ReadChunkInv, Config.CAPACITY]) <;> decide

theorem engineInv_waiting :
    EngineInv (waiting .wSettle 5 1) ∧ EngineInv (waiting .wSettle 5 0) ∧ EngineInv (waiting .wPmark 0 1)
      ∧ EngineInv (waiting .wPsleep 0 1) ∧ EngineInv (waiting .pEnd 0 1) ∧ EngineInv (waiting .pEnd 0 0)
      ∧ EngineInv (waiting .wPchk 0 1) := by
  refine ⟨?_, ?_, ?_, ?_, ?_, ?_, ?_⟩ <;> refine ⟨?_, ?_, ?_, ?_, ?_, ?_, ?_, ?_⟩ <;>
    (try simp only [BufferInv, StatusInv, CommandInv, ProgressInv, DataChunkInv, WaitInv, ReadChunkInv, Config.CAPACITY]) <;> decide

theorem engineInv_reading :
    EngineInv (reading .rReq 0) ∧ EngineInv (reading .rMark 0) ∧ EngineInv (reading .rAvail 0) ∧ EngineInv (reading .rByte 4)
      ∧ EngineInv (reading .rTmark 1) ∧ EngineInv (reading .rTmark 5) ∧ EngineInv (reading .rTchk 1) := by
  refine ⟨?_, ?_, ?_, ?_, ?_, ?_, ?_⟩ <;> refine ⟨?_, ?_, ?_, ?_, ?_, ?_, ?_, ?_⟩ <;>
    (try simp only [BufferInv, StatusInv, CommandInv, ProgressInv, DataChunkInv, WaitInv, ReadChunkInv, Config.CAPACITY]) <;> decide

theorem engineInv_others :
    EngineInv idle ∧ EngineInv (seeking .aBegin) ∧ EngineInv (seeking .aEnd) ∧ EngineInv (writing (.fault .bufOob) 2) := by
  refine ⟨?_, ?_, ?_, ?_⟩ <;> refine ⟨?_, ?_, ?_, ?_, ?_, ?_, ?_, ?_⟩ <;>
    (try simp only [BufferInv, StatusInv, CommandInv, ProgressInv, DataChunkInv, WaitInv, ReadChunkInv, Config.CAPACITY]) <;> decide

/-- An Issue is accepted, for each use of the buffer, as a move and as a call, and with KEEP. -/
theorem test_accepted :
    Accepted .needed (request 0x5001 60 5) (issued 0x5001 60 5)
      ∧ Accepted .null (request 0x500A 60 5) (issued 0x500A 60 5)
      ∧ Accepted .unused (request 0x5003 60 5) (issued 0x5003 60 5)
      ∧ Accepted .unused ⟨0x5003, none, 0, 0, none⟩ (called ⟨0x5003, none, 0, 0, none⟩ []) := by
  simp only [Accepted]
  decide

theorem test_witness_EncodeThenDecodeIsIdentity : (Instr.readF64N 0xFF).wf = true ∧ (Instr.addr 0).wf = true := by decide

theorem test_witness_DecodeThenEncodeIsIdentity : decode 0x508A = some (.readF64N 0x50) := by decide

theorem test_witness_OpcodeMapRows : decode 0xFF82 = some (.readF64 0xFF) ∧ decode 0xFF81 ≠ some (.readF64 0xFF) := by decide

theorem test_witness_StepRunsTheDecodedCommand :
    (fetch (issued 0x5081 60 5) = some (request 0x5081 60 5) ∧ decode 0x5081 = some (.writeF64 0x50))
      ∧ hostQuiet (writing .wData 0) = true ∧ (writing .wData 0).seq.running = true ∧ decode 0x5001 = some (.writeB 0x50) := by
  decide

theorem test_witness_StateNamesThePrimitive :
    hostQuiet (seeking .aEnd) = true ∧ (seeking .aEnd).seq.running = true
      ∧ hostQuiet { seeking .aEnd with inbox := [.pass] } = true := by
  decide

theorem test_witness_IdleWaitsAndFaultStops :
    idle.seq = .idle ∧ idle.inbox = [] ∧ (writing (.fault .bufOob) 2).inbox = [] := by
  decide

theorem test_witness_AcceptedIssueLatchesOperands :
    Accepted (useOf (.writeB 0x50)) (request 0x5001 60 5) (issued 0x5001 60 5)
      ∧ Accepted (useOf (.readBN 0x50)) (request 0x500A 60 5) (issued 0x500A 60 5)
      ∧ Accepted (useOf (.addr 0x50)) (request 0x5003 60 5) (issued 0x5003 60 5) :=
  ⟨test_accepted.1, test_accepted.2.1, test_accepted.2.2.1⟩

/-- Each of the five refusals, and the two that hold at once. -/
theorem test_witness_RefusedIssueChangesNothing :
    (fetch (issued 0x5091 0 1) = some (request 0x5091 0 1) ∧ decode 0x5091 = none)
      ∧ (fetch { writing .wData 0 with inbox := [.issue (request 0x5001 0 1)] } = some (request 0x5001 0 1)
          ∧ (writing .wData 0).seq ≠ .idle ∧ (writing .wData 0).seq.isFault = false)
      ∧ (fetch { writing (.fault .bufOob) 2 with inbox := [.call (request 0x5001 0 1)] } = some (request 0x5001 0 1)
          ∧ (writing (.fault .bufOob) 2).seq.isFault = true)
      ∧ (fetch { State.reset with inbox := [.issue ⟨0x5003, none, 0, 0, none⟩] } = some ⟨0x5003, none, 0, 0, none⟩
          ∧ State.reset.cursorLoaded = false)
      ∧ fetch { idle with inbox := [.call ⟨0x5001, none, 0, 0, none⟩] } = some ⟨0x5001, none, 0, 0, none⟩
      ∧ decode 0x5001 = some (.writeB 0x50) ∧ useOf (.writeB 0x50) = .needed := by
  decide

theorem test_witness_RefusalNamesItsReasons :
    ∃ t, step { writing .wData 0 with inbox := [.issue ⟨0x5001, none, 0, 0, none⟩], cursorLoaded := false } = .next t
      ∧ t.reply = .refused [.busy, .noCursor, .noBuffer] :=
  ⟨_, rfl, by decide⟩

/-- The branches of R100: rejected, nothing to write, at the very end of the device, and a chunk cut by the page boundary. -/
theorem test_witness_WriteIssueStep :
    Accepted .needed (request 0x5001 0xFFFF 2) (issued 0x5001 0xFFFF 2)
      ∧ Config.CAPACITY < 0xFFFF + issuedLength .b (request 0x5001 0xFFFF 2) (issued 0x5001 0xFFFF 2)
      ∧ Config.CAPACITY = 0xFFFF + issuedLength .b (request 0x5001 0xFFFF 1) (issued 0x5001 0xFFFF 1)
      ∧ issuedLength .f64 (request 0x5081 60 0) (issued 0x5081 60 0) = 0
      ∧ Config.PAGE - 60 % Config.PAGE < issuedLength .u16 (request 0x5031 60 5) (issued 0x5031 60 5) := by
  simp only [Accepted]
  decide

theorem test_witness_ReadIssueStep :
    Accepted .needed (request 0x5002 0xFFFF 2) (issued 0x5002 0xFFFF 2)
      ∧ Config.CAPACITY < 0xFFFF + issuedLength .b (request 0x5002 0xFFFF 2) (issued 0x5002 0xFFFF 2)
      ∧ issuedLength .b (request 0x5002 0 0) (issued 0x5002 0 0) = 0
      ∧ params.readCap < issuedLength .b (request 0x5002 0 33) (issued 0x5002 0 33) := by
  simp only [Accepted]
  decide

theorem test_witness_SeekIssueStep :
    Accepted .null (request 0x500A 1 65536) (issued 0x500A 1 65536)
      ∧ Config.CAPACITY < 1 + issuedLength .b (request 0x500A 1 65536) (issued 0x500A 1 65536)
      ∧ Config.CAPACITY = 0 + issuedLength .b (request 0x500A 0 65536) (issued 0x500A 0 65536) := by
  simp only [Accepted]
  decide

theorem test_witness_AddrIssueStep : Accepted .unused (request 0x5003 60 5) (issued 0x5003 60 5) := test_accepted.2.2.1

theorem test_witness_RejectedRangeLeavesBptrZero :
    Accepted (useOf (.writeB 0x50)) (request 0x5001 0xFFFF 2) (issued 0x5001 0xFFFF 2)
      ∧ ∃ t, exec (.writeB 0x50) (issued 0x5001 0xFFFF 2) = .next t ∧ t.result = .exceedRomCapacity ∧ t.seq = .idle := by
  refine ⟨by simp only [Accepted]; decide, _, rfl, rfl, rfl⟩

/-- An accepted command, one that stays busy, and a refused one. -/
theorem test_witness_IssueFrame :
    fetch (issued 0x5003 60 5) = some (request 0x5003 60 5)
      ∧ (∃ t, exec (.addr 0x50) (issued 0x5003 60 5) = .next t ∧ t.busy = true)
      ∧ (∃ t, exec (.writeB 0x50) { issued 0x5001 60 5 with seq := .fault .bufOob } = .next t)
      ∧ ¬ Accepted .needed (request 0x5001 60 5) { issued 0x5001 60 5 with seq := .fault .bufOob } := by
  refine ⟨by decide, ⟨_, rfl, rfl⟩, ⟨_, rfl⟩, by simp only [Accepted]; decide⟩

/-- WRITE.F32, READ.F32 and READ.F32.N of two elements and the byte commands of eight bytes; 65536 is the largest length that
passes the check, and the length at which LEN of a byte command still has its 17 bits. -/
theorem test_witness_TypedCommandIsScaledByteCommand :
    (request 0x5001 60 8).len.toNat = issuedLength .f32 (request 0x5071 60 2) (issued 0x5071 60 2)
      ∧ (request 0x5002 60 65536).len.toNat = issuedLength .u16 (request 0x5032 60 32768) (issued 0x5032 60 32768)
      ∧ Accepted .needed (request 0x5071 60 2) (issued 0x5071 60 2)
      ∧ Accepted .needed (request 0x5072 60 2) (issued 0x5072 60 2)
      ∧ Accepted .null (request 0x507A 60 2) (issued 0x507A 60 2)
      ∧ (∃ t, exec (.write .f32 0x50) (issued 0x5071 60 2) = .next t)
      ∧ (∃ t, exec (.read .f32 0x50) (issued 0x5072 60 2) = .next t)
      ∧ ∃ t, exec (.seek .f32 0x50) (issued 0x507A 60 2) = .next t := by
  refine ⟨by decide, by decide, ?_, ?_, ?_, ⟨_, rfl⟩, ⟨_, rfl⟩, _, rfl⟩ <;> simp only [Accepted] <;> decide

theorem test_witness_NextChunkSizes :
    (waiting .wSettle 5 0).rem = 0 ∧ (writing .wBegin 0).rem ≠ 0
      ∧ (nextWriteChunk { writing .wBegin 0 with cursor := 64, rem := 65536 }).chunk = 64
      ∧ (nextReadChunk { writing .wBegin 0 with rem := 33 }).chunk = 32 := by
  decide

/-- WRITE.U16 of four elements at 61, in its second chunk: byte 1 of element 2 is the third byte of the transaction at 64. -/
def typedWriting : State :=
  { writing .wData 0 with
    cmd := 0x5031, len := 4, cursor := 64, bptr := 3, bytelen := 8, rem := 5, chunk := 5, cidx := 2, bufLen := 6,
    hist := [.issue 0x5031 (some 61) 4 5 6, .begin 0x50, .wr 0x00, .wr 0x40, .wr 0x40, .wr 0x50] }

theorem test_witness_TypedWriteSendsElementBytes :
    EngineInv typedWriting ∧ TransactionInv typedWriting
      ∧ hostQuiet typedWriting = true ∧ typedWriting.cmd = encode (.write .u16 0x50) ∧ typedWriting.seq = .wData
      ∧ typedWriting.cursor = 61#16 + typedWriting.bptr.setWidth 16
      ∧ (elementIndexes params .u16 2)[1]? = some (typedWriting.bptr.toNat + typedWriting.cidx.toNat)
      ∧ typedWriting.bptr.toNat + typedWriting.cidx.toNat < typedWriting.bufLen := by
  refine ⟨⟨?_, ?_, ?_, ?_, ?_, ?_, ?_, ?_⟩, ?_, ?_⟩
  all_goals
    (try simp only [BufferInv, StatusInv, CommandInv, ProgressInv, DataChunkInv, WaitInv, ReadChunkInv, TransactionInv,
      Config.CAPACITY])
  all_goals decide

theorem test_witness_TypedReadStoresElementBytes :
    EngineInv { reading .rByte 4 with cmd := 0x5032 } ∧ hostQuiet (reading .rByte 4) = true
      ∧ (0x5032 : CmdWord) = encode (.read .u16 0x50)
      ∧ (reading .rByte 4).cursor = 60#16 + (reading .rByte 4).bptr.setWidth 16
      ∧ (elementIndexes params .u16 2)[0]? = some (reading .rByte 4).bptr.toNat
      ∧ (reading .rByte 4).bptr.toNat < (reading .rByte 4).bufLen
      ∧ nextAnswer { reading .rByte 4 with cmd := 0x5032, answers := [255] } ≤ 255 := by
  refine ⟨⟨?_, ?_, ?_, ?_, ?_, ?_, ?_, ?_⟩, ?_⟩
  all_goals
    (try simp only [BufferInv, StatusInv, CommandInv, ProgressInv, DataChunkInv, WaitInv, ReadChunkInv, Config.CAPACITY])
  all_goals decide

/-- R8: the value of an element under each host order (0x1234). -/
theorem test_element_value :
    elementValue .big [0x12, 0x34] = 0x1234 ∧ elementValue .little [0x34, 0x12] = 0x1234
      ∧ elementIndexes params .u16 2 = [4, 5] := by
  decide

/-- The four rows; at W_DATA a byte that is not the last of its chunk, the last one, and one at BUFLEN. -/
theorem test_witness_WriteChunkTransmission :
    hostQuiet (writing .wBegin 0) = true ∧ hostQuiet (writing .wAhi 0) = true ∧ hostQuiet (writing .wAlo 0) = true
      ∧ hostQuiet (writing .wData 3) = true
      ∧ nextIs (step (writing .wData 2)) (fun t => t.seq == .wData) = true
      ∧ nextIs (step (writing .wData 3)) (fun t => t.seq == .wEnd) = true
      ∧ nextIs (step { writing .wData 3 with bufLen := 3 }) (fun t => t.seq == .fault .bufOob) = true := by
  decide

/-- A close with OK and one with OTHER; SETTLE = 5 and 0. -/
theorem test_witness_WriteChunkClose :
    EngineInv (writing .wEnd 4) ∧ hostQuiet (writing .wEnd 4) = true
      ∧ TxStatus.ofRaw (nextAnswer { writing .wEnd 4 with answers := [0] }) = some .ok
      ∧ TxStatus.ofRaw (nextAnswer { writing .wEnd 4 with answers := [4] }) = some .other
      ∧ nextIs (step { writing .wEnd 4 with answers := [0] }) (fun t => t.seq == .wSettle) = true
      ∧ nextIs (step { writing .wEnd 4 with answers := [0], settle := 0 }) (fun t => t.seq == .wPmark) = true := by
  refine ⟨engineInv_writing.2.2.2.2.2, ?_⟩
  decide

theorem test_witness_FixedSettleDelay :
    hostQuiet (waiting .wSettle 5 1) = true ∧ (waiting .wSettle 5 1).seq = .wSettle
      ∧ (waiting .wSettle 5 1).rem ≠ 0 ∧ (waiting .wSettle 5 0).rem = 0 := by
  decide

theorem test_witness_FixedSettleDelay_noTimeout :
    EngineInv (waiting .wSettle 5 0) ∧ hostQuiet (waiting .wSettle 5 0) = true ∧ inWrite .wSettle = true
      ∧ (waiting .wSettle 5 0).settle.toNat > 0 ∧ ∃ t, step (waiting .wSettle 5 0) = .next t ∧ t.seq = .idle :=
  ⟨engineInv_waiting.2.1, rfl, rfl, by decide, _, rfl, rfl⟩

theorem test_witness_AcknowledgePolling_probe :
    hostQuiet (waiting .wPmark 0 1) = true ∧ hostQuiet (waiting .wPsleep 0 1) = true ∧ hostQuiet (waiting .pBegin 0 1) = true
      ∧ hostQuiet (waiting .pAhi 0 1) = true ∧ hostQuiet (waiting .pAlo 0 1) = true := by
  decide

/-- A probe with OK, with more to write and with nothing left, one with NACK_ADDR, and elapsed times of 20 and 21. -/
theorem test_witness_AcknowledgePolling :
    TxStatus.ofRaw (nextAnswer { waiting .pEnd 0 1 with answers := [0] }) = some .ok
      ∧ TxStatus.ofRaw (nextAnswer { waiting .pEnd 0 1 with answers := [2] }) = some .nackAddr
      ∧ nextIs (step { waiting .pEnd 0 1 with answers := [0] }) (fun t => t.seq == .wBegin && t.chunk == 1) = true
      ∧ nextIs (step { waiting .pEnd 0 0 with answers := [0] }) (fun t => t.result == .success && !t.busy) = true
      ∧ (BitVec.ofNat 32 (waiting .wPchk 0 1).time - (waiting .wPchk 0 1).tmark).toNat = 20
      ∧ nextIs (step (waiting .wPchk 0 1)) (fun t => t.seq == .wPsleep) = true
      ∧ nextIs (step { waiting .wPchk 0 1 with time := 1001 }) (fun t => t.result == .timeout) = true := by
  decide

theorem test_witness_WriteSequenceFrame :
    fetch (writing .wData 1) = none ∧ inWrite (writing .wData 1).seq = true
      ∧ ∃ t, exec (.write .b 0x50) (writing .wData 1) = .next t ∧ t.seq ≠ .wBegin ∧ t.seq ≠ .idle :=
  ⟨rfl, rfl, _, rfl, by decide, by decide⟩

theorem test_witness_AddressOnlySequence :
    hostQuiet (seeking .aBegin) = true ∧ hostQuiet (seeking .aAhi) = true ∧ hostQuiet (seeking .aAlo) = true
      ∧ hostQuiet (seeking .aEnd) = true
      ∧ TxStatus.ofRaw (nextAnswer { seeking .aEnd with answers := [0] }) = some .ok
      ∧ TxStatus.ofRaw (nextAnswer { seeking .aEnd with answers := [4] }) = some .other := by
  decide

theorem test_witness_AddrSequenceFrame :
    fetch (seeking .aAhi) = none ∧ inAddr (seeking .aAhi).seq = true
      ∧ (∃ t, exec (.addr 0x50) (seeking .aAhi) = .next t ∧ t.seq ≠ .idle)
      ∧ ∃ t, exec (.seek .u32 0x50) (seeking .aAhi) = .next t :=
  ⟨rfl, rfl, ⟨_, rfl, by decide⟩, _, rfl⟩

/-- The count asked for, one less, and 255. -/
theorem test_witness_ReadRequestChecksTheCount :
    hostQuiet (reading .rReq 0) = true
      ∧ nextAnswer { reading .rReq 0 with answers := [5] } = (reading .rReq 0).chunk.toNat
      ∧ nextAnswer { reading .rReq 0 with answers := [4] } ≤ 255 ∧ nextAnswer { reading .rReq 0 with answers := [255] } ≤ 255 := by
  decide

/-- Each row of R134: both answers of RxAvailable, the last byte of the buffer and the one after, both ends of a chunk, and elapsed
times of 20 and 21. -/
theorem test_witness_DrainLoop :
    EngineInv (reading .rMark 0) ∧ EngineInv (reading .rByte 4) ∧ EngineInv (reading .rTmark 5) ∧ EngineInv (reading .rTchk 1)
      ∧ hostQuiet (reading .rAvail 0) = true
      ∧ nextAnswer { reading .rAvail 0 with answers := [1] } ≤ 1 ∧ nextAnswer { reading .rAvail 0 with answers := [0] } ≤ 1
      ∧ (reading .rByte 4).bptr.toNat < (reading .rByte 4).bufLen
      ∧ nextAnswer { reading .rByte 4 with answers := [255] } ≤ 255
      ∧ { reading .rByte 4 with bufLen := 4 }.bufLen ≤ (reading .rByte 4).bptr.toNat
      ∧ (reading .rTmark 5).cidx = (reading .rTmark 5).chunk ∧ (reading .rTmark 1).cidx ≠ (reading .rTmark 1).chunk
      ∧ nextIs (step (reading .rTchk 1)) (fun t => t.seq == .rAvail) = true
      ∧ nextIs (step { reading .rTchk 1 with time := 1001 }) (fun t => t.result == .timeout) = true := by
  refine ⟨engineInv_reading.2.1, engineInv_reading.2.2.2.1, engineInv_reading.2.2.2.2.2.1, engineInv_reading.2.2.2.2.2.2, ?_⟩
  decide

theorem test_witness_ReadSequenceFrame :
    BufferInv (reading .rByte 4) ∧ fetch (reading .rByte 4) = none ∧ inRead (reading .rByte 4).seq = true
      ∧ ∃ t, exec (.read .b 0x50) { reading .rByte 4 with answers := [7] } = .next t ∧ t.seq ≠ .rReq ∧ t.seq ≠ .idle :=
  ⟨engineInv_reading.2.2.2.1.1, rfl, rfl, _, rfl, by decide, by decide⟩

theorem test_witness_OutOfBoundsAccessFaults :
    hostQuiet (writing .wData 2) = true
      ∧ { writing .wData 2 with bufLen := 2 }.bufLen ≤ (writing .wData 2).bptr.toNat + (writing .wData 2).cidx.toNat
      ∧ { reading .rByte 2 with bufLen := 2 }.bufLen ≤ (reading .rByte 2).bptr.toNat := by
  decide

/-- The smallest answer outside each type. -/
theorem test_witness_AnswerOutsideItsTypeFaults :
    5 ≤ nextAnswer { writing .wEnd 4 with answers := [5] } ∧ 5 ≤ nextAnswer { waiting .pEnd 0 1 with answers := [5] }
      ∧ 5 ≤ nextAnswer { seeking .aEnd with answers := [5] } ∧ 256 ≤ nextAnswer { reading .rReq 0 with answers := [256] }
      ∧ 2 ≤ nextAnswer { reading .rAvail 0 with answers := [2] }
      ∧ (reading .rByte 4).bptr.toNat < (reading .rByte 4).bufLen ∧ 256 ≤ nextAnswer { reading .rByte 4 with answers := [256] } := by
  decide

theorem test_witness_FaultIsTerminal :
    (writing (.fault .bufOob) 2).seq = .fault .bufOob
      ∧ (∃ t, step { writing (.fault .bufOob) 2 with inbox := [.pass] } = .next t)
      ∧ fetch { writing (.fault .bufOob) 2 with inbox := [.issue (request 0x5001 0 1)] } = some (request 0x5001 0 1)
      ∧ { writing (.fault .bufOob) 2 with inbox := [.reset] }.inbox.head? = some .reset
      ∧ (∃ t, step { writing .wData 2 with bufLen := 2 } = .next t ∧ t.seq = .fault .bufOob)
      ∧ ∃ t, step { reading .rAvail 2 with answers := [2] } = .next t ∧ t.seq = .fault .badAnswer :=
  ⟨rfl, ⟨_, rfl⟩, by decide, rfl, ⟨_, rfl, by decide⟩, _, rfl, by decide⟩

theorem test_witness_CommandsEndByFinish :
    ∃ t, step (waiting .wSettle 5 0) = .next t ∧ (waiting .wSettle 5 0).inbox.head? ≠ some .reset
      ∧ (waiting .wSettle 5 0).busy = true ∧ t.busy = false :=
  ⟨_, rfl, by decide, rfl, rfl⟩

/-- A write that times out, a read that gets a wrong count, and an address transaction that is not acknowledged. -/
theorem test_witness_ResultsByFamily :
    EngineInv (waiting .wPchk 0 1) ∧ EngineInv (reading .rReq 0) ∧ EngineInv (seeking .aEnd)
      ∧ nextIs (step { waiting .wPchk 0 1 with time := 1001 }) (fun t => t.seq == .idle && t.result == .timeout) = true
      ∧ nextIs (step { reading .rReq 0 with answers := [4] }) (fun t => t.seq == .idle && t.result == .unexpectedDataLength) = true
      ∧ nextIs (step { seeking .aEnd with answers := [2] }) (fun t => t.seq == .idle && t.result == .nackOnAddr) = true := by
  refine ⟨engineInv_waiting.2.2.2.2.2.2, engineInv_reading.1, engineInv_others.2.2.1, ?_⟩
  decide

theorem test_witness_ResultIsTheLastDone :
    ResultInv (waiting .wSettle 5 0) ∧ ResultInv State.reset ∧ ∃ t, step (waiting .wSettle 5 0) = .next t := by
  refine ⟨?_, ?_, _, rfl⟩ <;> simp only [ResultInv] <;> decide

theorem test_witness_OneDoneForEachIssue :
    BalanceInv { waiting .wSettle 5 0 with hist := [.issue 0x5001 (some 60) 5 5 5] }
      ∧ ∃ t, step { waiting .wSettle 5 0 with hist := [.issue 0x5001 (some 60) 5 5 5] } = .next t := by
  refine ⟨?_, _, rfl⟩
  simp only [BalanceInv]
  decide

theorem test_witness_ResetFromAnyState : { writing .wData 2 with inbox := [.reset, .pass] }.inbox = .reset :: [.pass] := by
  decide

/-- R36, R187, R189: each read before its register holds a value, while BUSY, and after. -/
theorem test_witness_HostReadsOfEveryRegister :
    State.reset.resultValid = false ∧ State.reset.cursorLoaded = false ∧ State.reset.busy = false
      ∧ idle.resultValid = true ∧ idle.cursorLoaded = true ∧ idle.busy = false ∧ (writing .wData 2).busy = true
      ∧ nextIs (step { writing .wData 2 with inbox := [.read .status] }) (fun t => t.reply == .value 8) = true
      ∧ nextIs (step { writing .wData 2 with inbox := [.read .busy] }) (fun t => t.reply == .value 1) = true
      ∧ nextIs (step { writing .wData 2 with inbox := [.read .cursor] }) (fun _ => true) = false
      ∧ nextIs (step { idle with inbox := [.read .cursor] }) (fun t => t.reply == .value 60) = true
      ∧ nextIs (step { idle with inbox := [.read .bptr], cursorLoaded := false }) (fun t => t.reply == .value 0) = true
      ∧ nextIs (step { idle with inbox := [.read (.bufByte 0)] }) (fun _ => true) = false
      ∧ nextIs (step { idle with inbox := [.read (.bufByte 1)], buf := [(1, 7)], bufLen := 2 })
          (fun t => t.reply == .value 7) = true := by
  decide

theorem test_witness_EveryStepKeepsTheInvariant :
    EngineInv (writing .wData 3) ∧ ∃ t, step (writing .wData 3) = .next t ∧ t.seq = .wEnd :=
  ⟨engineInv_writing.2.2.2.2.1, _, rfl, by decide⟩

/-- A settle sleep of 5, a poll sleep of 1, and a reading. That an infinite run exists is not shown by a finite test: from IDLE with no
move every step answers a next state in IDLE with no move (IdleWaitsAndFaultStops). -/
theorem test_witness_TimeObeysTheClockRules :
    (∃ t, step (waiting .wSettle 5 1) = .next t ∧ t.time = 1005) ∧ (∃ t, step (waiting .wPsleep 0 1) = .next t ∧ t.time = 1001)
      ∧ ∃ t, step { waiting .wPmark 0 1 with delays := [3] } = .next t ∧ t.time = 1003
        ∧ Event.ms 1000 ∈ t.hist.drop (waiting .wPmark 0 1).hist.length :=
  ⟨⟨_, rfl, by decide⟩, ⟨_, rfl, by decide⟩, _, rfl, by decide, by decide⟩

/-- An infinite run: IDLE without a host move. -/
theorem test_witness_TimeObeysTheClockRules_run :
    ∃ run : Nat → State, run 0 = { State.reset with params := params } ∧ ∀ n, step (run n) = .next (run (n + 1)) := by
  refine ⟨fun n => (advance 0)^[n] { State.reset with params := params }, rfl, fun n => ?_⟩
  have h : ∀ n, ((advance 0)^[n] { State.reset with params := params }).seq = .idle
      ∧ ((advance 0)^[n] { State.reset with params := params }).inbox = [] := by
    intro n
    induction n with
    | zero => exact ⟨rfl, rfl⟩
    | succ n ih => simpa [Function.iterate_succ_apply'] using ih
  have := h n
  simp [step, nextActivity, fetch, runningCommand, sequencerStep, perform, dropPass, Seq.running, this,
    Function.iterate_succ_apply']

theorem test_witness_HistoryOnlyGrows :
    ∃ t, step (writing .wBegin 0) = .next t ∧ (writing .wBegin 0).inbox.head? ≠ some .reset ∧ t.hist ≠ (writing .wBegin 0).hist :=
  ⟨_, rfl, by decide, by decide⟩

theorem test_witness_ParametersNeverChange : ∃ t, step { writing .wData 2 with inbox := [.reset] } = .next t ∧ t.params = params :=
  ⟨_, rfl, rfl⟩

/-- The invariant of the open transaction before its first data byte, after two of them, and at the close of a probe. -/
theorem test_witness_EveryStepKeepsTheTransaction :
    TransactionInv { writing .wAlo 0 with hist := [.begin 0x50, .wr 0x00] }
      ∧ TransactionInv { writing .wData 2 with hist := [.begin 0x50, .wr 0x00, .wr 0x3C, .wr 0x10, .refused 0x5000, .wr 0x20] }
      ∧ TransactionInv { waiting .pEnd 0 1 with hist := [.begin 0x50, .wr 0x00, .wr 0x40] }
      ∧ EngineInv (writing .wAlo 0) ∧ ∃ t, step (writing .wAlo 0) = .next t ∧ t.seq = .wData := by
  refine ⟨?_, ?_, ?_, engineInv_writing.2.2.1, _, rfl, by decide⟩ <;> simp only [TransactionInv] <;> decide

theorem test_witness_NoChunkCrossesAPage : EngineInv (writing .wBegin 0) ∧ inDataChunk (writing .wBegin 0).seq = true :=
  ⟨engineInv_writing.1, rfl⟩

theorem test_witness_LaterChunksStartOnAPage :
    EngineInv (waiting .wSettle 5 1) ∧ hostQuiet (waiting .wSettle 5 1) = true
      ∧ (∃ t, step (waiting .wSettle 5 1) = .next t ∧ t.seq = .wBegin)
      ∧ EngineInv (waiting .pEnd 0 1)
      ∧ ∃ t, step { waiting .pEnd 0 1 with answers := [0] } = .next t ∧ t.seq = .wBegin :=
  ⟨engineInv_waiting.1, rfl, ⟨_, rfl, by decide⟩, engineInv_waiting.2.2.2.2.1, _, rfl, by decide⟩

theorem test_witness_RequestsAreWithinReadCap :
    EngineInv (reading .rReq 0)
      ∧ ∃ t, step { reading .rReq 0 with answers := [5] } = .next t
        ∧ Event.req 0x50 5 5 ∈ t.hist.drop (reading .rReq 0).hist.length :=
  ⟨engineInv_reading.1, _, rfl, by decide⟩

theorem test_witness_SuccessMeansEveryByteMoved :
    EngineInv (waiting .wSettle 5 0) ∧ EngineInv (reading .rTmark 5)
      ∧ (∃ t, step (waiting .wSettle 5 0) = .next t ∧ t.seq = .idle ∧ t.result = .success)
      ∧ ∃ t, step (reading .rTmark 5) = .next t ∧ t.seq = .idle ∧ t.result = .success :=
  ⟨engineInv_waiting.2.1, engineInv_reading.2.2.2.2.2.1, ⟨_, rfl, rfl, rfl⟩, _, rfl, rfl, rfl⟩

theorem test_witness_UnexpectedLengthAtAMultipleOfReadCap :
    EngineInv (reading .rReq 0)
      ∧ ∃ t, step { reading .rReq 0 with answers := [4] } = .next t ∧ t.seq = .idle ∧ t.result = .unexpectedDataLength :=
  ⟨engineInv_reading.1, _, rfl, rfl, rfl⟩

theorem test_witness_CursorAdvancesWithBptr :
    hostQuiet (writing .wEnd 4) = true ∧ inWrite .wEnd = true ∧ inRead .rByte = true
      ∧ nextIs (step { writing .wEnd 4 with answers := [0] }) (fun t => t.cursor == 64 && t.bptr == 4) = true
      ∧ nextIs (step { reading .rByte 4 with answers := [7] }) (fun t => t.cursor == 65 && t.bptr == 5) = true := by
  decide

theorem test_witness_HostOrderTakesNoPart : ∃ t, step (writing .wData 2) = .next t := ⟨_, rfl⟩

/-- Two buffers that differ in a byte that is being sent, and the same buffers in a step that sends an offset. -/
theorem test_witness_DataNeverSteersTheEngine :
    SameButData (writing .wData 2) { writing .wData 2 with buf := [(2, 0xFF)] }
      ∧ SameButData (writing .wAhi 0) { writing .wAhi 0 with buf := [(2, 0xFF)] } ∧ (writing .wAhi 0).seq ≠ .wData
      ∧ (∀ i, (writing .wData 2).inbox.head? ≠ some (.read (.bufByte i))) ∧ ∃ t, step (writing .wData 2) = .next t := by
  refine ⟨?_, ?_, by decide, ?_, _, rfl⟩
  · simp only [SameButData]
    decide
  · simp only [SameButData]
    decide
  · intro i
    simp [writing, idle, State.reset]

theorem test_witness_AddrRunsToCompletion :
    Accepted .unused (request 0x5003 60 5) (called (request 0x5003 60 5) [3])
      ∧ decode 0x5003 = some (.addr 0x50) ∧ (called (request 0x5003 60 5) [3]).inbox = .call (request 0x5003 60 5) :: []
      ∧ onlyCalls [] = true ∧ (called (request 0x5003 60 5) [3]).answers = 3 :: [] ∧ TxStatus.ofRaw 3 = some .nackData := by
  simp only [Accepted]
  decide

/-- A seek to the very end of the device. -/
theorem test_witness_SeekRunsToCompletion :
    Accepted .null (request 0x508A 65528 1) (called (request 0x508A 65528 1) [0])
      ∧ decode 0x508A = some (.seek .f64 0x50)
      ∧ (called (request 0x508A 65528 1) [0]).inbox = .call (request 0x508A 65528 1) :: [] ∧ onlyCalls [] = true
      ∧ (called (request 0x508A 65528 1) [0]).answers = 0 :: [] ∧ TxStatus.ofRaw 0 = some .ok
      ∧ (issuedCursor (request 0x508A 65528 1) (called (request 0x508A 65528 1) [0])).toNat
          + issuedLength .f64 (request 0x508A 65528 1) (called (request 0x508A 65528 1) [0]) = Config.CAPACITY := by
  simp only [Accepted]
  decide

/-- Two elements of two bytes at 62, in two chunks. -/
theorem test_witness_SettledWriteRunsToCompletion :
    Accepted .needed (request 0x5031 62 2) (called (request 0x5031 62 2) [0, 0])
      ∧ decode 0x5031 = some (.write .u16 0x50)
      ∧ (called (request 0x5031 62 2) [0, 0]).inbox = .call (request 0x5031 62 2) :: [] ∧ onlyCalls [] = true
      ∧ (request 0x5031 62 2).buf = some fiveBytes ∧ (request 0x5031 62 2).settle.toNat > 0
      ∧ issuedLength .u16 (request 0x5031 62 2) (called (request 0x5031 62 2) [0, 0]) = 4
      ∧ (62 % Config.PAGE + 4 + (Config.PAGE - 1)) / Config.PAGE = 2
      ∧ (called (request 0x5031 62 2) [0, 0]).answers = List.replicate 2 0 ++ [] := by
  simp only [Accepted]
  decide

theorem test_witness_FullReadRunsToCompletion :
    Accepted .needed (request 0x5032 0 2) (called (request 0x5032 0 2) [4, 1, 9, 1, 8, 1, 7, 1, 6])
      ∧ decode 0x5032 = some (.read .u16 0x50) ∧ onlyCalls [] = true
      ∧ issuedLength .u16 (request 0x5032 0 2) (called (request 0x5032 0 2) []) = 4
      ∧ (called (request 0x5032 0 2) [4, 1, 9, 1, 8, 1, 7, 1, 6]).inbox = .call (request 0x5032 0 2) :: []
      ∧ (request 0x5032 0 2).buf = some fiveBytes
      ∧ (called (request 0x5032 0 2) [4, 1, 9, 1, 8, 1, 7, 1, 6]).answers
          = fullReadAnswers params.readCap 4 [9, 8, 7, 6] ++ [] := by
  simp only [Accepted]
  decide

/-- 21 probes that are not acknowledged, with an exact clock. -/
def failingPoll : State := { waiting .wPmark 0 1 with answers := List.replicate 21 2, delays := List.replicate 127 0 }

theorem test_witness_FailingPollTimesOut :
    failingPoll.seq = .wPmark ∧ onlyCalls failingPoll.inbox = true ∧ 21 ≤ failingPoll.answers.length
      ∧ (∀ a ∈ failingPoll.answers, 1 ≤ a ∧ a ≤ 4) ∧ 127 ≤ failingPoll.delays.length
      ∧ (failingPoll.delays.take 127).sum + 21 < 2 ^ 32 := by
  refine ⟨rfl, rfl, by decide, by decide, by simp [failingPoll], by simp [failingPoll]⟩

end Sys2Proof.Tests
end

/-! ## FAULT (spec/10_state.md R27): the proof of FaultIsTerminal and the lemmas it needs -/

namespace Sys2Proof

/-- A word is {BUS, CMD & 0x00FF} (R70). -/
theorem busField_append_lowByte (w : CmdWord) : busField w ++ lowByte w = w :=
  BitVec.extractLsb'_append_extractLsb'_eq_extractLsb' (by rfl) |>.trans BitVec.extractLsb'_eq_self

/-- R76: each row builds the commands whose word is {BUS, match[7:0]} of it. -/
theorem encode_build : ∀ row ∈ opcodeRows, ∀ bus, encode (row.build bus) = bus ++ row.low := by
  simp [opcodeRows, writeRows, readRows, seekRows, addrRows, encode, Instr.bus, Instr.low]

/-- The word of the command that a word decodes to is that word. -/
theorem encode_of_decode {w : CmdWord} {i : Instr} (h : decode w = some i) : encode i = w := by
  unfold decode at h
  split at h
  · rename_i row hrow
    have hlow : row.low = lowByte w := by simpa using List.find?_some hrow
    cases h
    rw [encode_build row (List.mem_of_find?_eq_some hrow), hlow, busField_append_lowByte]
  · cases h

end Sys2Proof

namespace Sys2Proof.Machine

open Sys2Proof.Safety

/-! ### The host's moves -/

/-- A step in which a reset lands. -/
theorem step_of_reset {s : State} (h : s.inbox.head? = some .reset) : step s = .next (hostReset s) := by
  obtain ⟨rest, hin⟩ := List.head?_eq_some_iff.mp h
  simp only [step, nextActivity, hin]

/-- A step in which an Issue lands: of its command, or the refusal of its reserved word. -/
theorem step_of_fetch {s : State} {r : IssueReq} (h : fetch s = some r) :
    (∃ i, decode r.cmd = some i ∧ step s = exec i s)
      ∨ (decode r.cmd = none ∧ step s = .next (refuseReserved r s)) := by
  rcases nextActivity_cases s with ⟨hb, -⟩ | ⟨reg, hb, -⟩ | ⟨r', i, hf, hd, ha⟩ | ⟨r', hf, hd, ha⟩ | ⟨hf, -⟩ | ⟨hf, -⟩
  · obtain ⟨rest, hin⟩ := List.head?_eq_some_iff.mp hb
    simp [fetch, hin] at h
  · obtain ⟨rest, hin⟩ := List.head?_eq_some_iff.mp hb
    simp [fetch, hin] at h
  · cases h.symm.trans hf
    exact .inl ⟨i, hd, by simp only [step, ha]⟩
  · cases h.symm.trans hf
    exact .inr ⟨hd, by simp only [step, ha]⟩
  all_goals cases h.symm.trans hf

/-- R186: an Issue that lands while STATE is not IDLE is refused. -/
theorem step_refuses_of_not_idle {s : State} {r : IssueReq} (hf : fetch s = some r) (hq : s.seq ≠ .idle) :
    ∃ reasons, step s = .next (refuse r.cmd reasons s) := by
  rcases step_of_fetch hf with ⟨i, hd, hs⟩ | ⟨-, hs⟩
  · have hr : refuseReasons true (useOf i) r s ≠ [] := fun hr => hq (refuseReasons_eq_nil.mp hr).1
    rw [hs, exec_eq, command_refused hf hr, encode_of_decode hd]
    exact ⟨_, rfl⟩
  · exact ⟨_, hs⟩

/-! ### What cannot enter FAULT -/

theorem nextWriteChunk_isFault (s : State) : (nextWriteChunk s).seq.isFault = false := by
  rcases nextWriteChunk_cases s with ⟨-, h⟩ | ⟨-, h⟩ <;> rw [h] <;> rfl

theorem nextReadChunk_isFault (s : State) : (nextReadChunk s).seq.isFault = false := by
  rcases nextReadChunk_cases s with ⟨-, h⟩ | ⟨-, h⟩ <;> rw [h] <;> rfl

theorem chunkWritten_isFault (s : State) : (chunkWritten s).seq.isFault = false := by
  unfold chunkWritten
  split <;> rfl

theorem startWrite_isFault (ty : ElemType) (s : State) : (startWrite ty s).seq.isFault = false := by
  simp only [startWrite]
  split
  · rfl
  · exact nextWriteChunk_isFault _

theorem startRead_isFault (ty : ElemType) (s : State) : (startRead ty s).seq.isFault = false := by
  simp only [startRead]
  split
  · rfl
  · exact nextReadChunk_isFault _

theorem startSeek_isFault (ty : ElemType) (s : State) : (startSeek ty s).seq.isFault = false := by
  simp only [startSeek]
  split <;> rfl

/-- No issue pseudocode enters FAULT (R100, R120, R130). -/
theorem startOf_isFault (i : Instr) (s : State) : (startOf i s).seq.isFault = false := by
  cases i
  case addr => rfl
  case writeB | writeU8 | writeI8 | writeU16 | writeI16 | writeU32 | writeI32 | writeF32 | writeF64 =>
    exact startWrite_isFault _ s
  case readB | readU8 | readI8 | readU16 | readI16 | readU32 | readI32 | readF32 | readF64 =>
    exact startRead_isFault _ s
  all_goals exact startSeek_isFault _ s

/-! ### What enters FAULT -/

/-- The step's access is out of bounds (R51), or its answer is outside its type (R191). -/
def FaultCause (s : State) : EngineFault → Prop
  | .bufOob =>
    (s.seq = .wData ∧ s.bufLen ≤ s.bptr.toNat + s.cidx.toNat) ∨ (s.seq = .rByte ∧ s.bufLen ≤ s.bptr.toNat)
  | .badAnswer =>
    ((s.seq = .wEnd ∨ s.seq = .pEnd ∨ s.seq = .aEnd) ∧ 5 ≤ nextAnswer s)
      ∨ s.seq = .rReq ∧ 256 ≤ nextAnswer s ∨ s.seq = .rAvail ∧ 2 ≤ nextAnswer s
      ∨ s.seq = .rByte ∧ 256 ≤ nextAnswer s

theorem not_fault_of_isFault_false {q : Seq} {f : EngineFault} (h : q.isFault = false) : q ≠ .fault f := by
  rintro rfl
  cases h

section Answers

variable {s : State} {f : EngineFault}

/-- What takes an answer enters FAULT only where the answer is outside its type, and keeps STATUS there (R191). -/
theorem badAnswer_of_fault {p : Prop} {t : State}
    (ht : t.seq.isFault = false ∨ p ∧ t = enterFault .badAnswer (dropAnswer s)) (h : t.seq = .fault f) :
    f = .badAnswer ∧ p ∧ KeepsStatus s t := by
  rcases ht with ht | ⟨hp, rfl⟩
  · exact absurd h (not_fault_of_isFault_false ht)
  · exact ⟨by simpa using h.symm, hp, by simp [KeepsStatus]⟩

theorem txEnd_fault {k : TxStatus → State → State} (hk : ∀ status t, (k status t).seq.isFault = false)
    (h : (txEnd s k).seq = .fault f) : f = .badAnswer ∧ 5 ≤ nextAnswer s ∧ KeepsStatus s (txEnd s k) := by
  refine badAnswer_of_fault ((txEnd_cases s k).imp (fun ⟨_, _, hs⟩ => hs ▸ hk _ _) fun ⟨hn, hs⟩ => ⟨?_, hs⟩) h
  exact Nat.le_of_not_lt fun hlt => by simpa [hn] using (ofRaw_isSome_iff _).mpr hlt

theorem rxRequest_fault {a n : Byte} {k : Byte → State → State} (hk : ∀ m t, (k m t).seq.isFault = false)
    (h : (rxRequest a n s k).seq = .fault f) :
    f = .badAnswer ∧ 256 ≤ nextAnswer s ∧ KeepsStatus s (rxRequest a n s k) :=
  badAnswer_of_fault ((rxRequest_cases a n s k).imp_left fun ⟨_, hs⟩ => hs ▸ hk _ _) h

theorem rxAvailable_fault {k : Bool → State → State} (hk : ∀ v t, (k v t).seq.isFault = false)
    (h : (rxAvailable s k).seq = .fault f) : f = .badAnswer ∧ 2 ≤ nextAnswer s ∧ KeepsStatus s (rxAvailable s k) :=
  badAnswer_of_fault ((rxAvailable_cases s k).imp_left fun ⟨_, hs⟩ => hs ▸ hk _ _) h

theorem rxRead_fault {k : Byte → State → State} (hk : ∀ b t, (k b t).seq.isFault = false)
    (h : (rxRead s k).seq = .fault f) : f = .badAnswer ∧ 256 ≤ nextAnswer s ∧ KeepsStatus s (rxRead s k) :=
  badAnswer_of_fault ((rxRead_cases s k).imp_left fun ⟨_, hs⟩ => hs ▸ hk _ _) h

theorem stepWData_fault (h : (stepWData s).seq = .fault f) :
    f = .bufOob ∧ s.bufLen ≤ writeIndex s ∧ KeepsStatus s (stepWData s) := by
  unfold stepWData at h ⊢
  split at h
  next hb => exact ⟨by simpa using h.symm, hb, by simp [hb, KeepsStatus]⟩
  next => split at h <;> cases h

theorem stepRByte_fault (h : (stepRByte s).seq = .fault f) :
    (f = .bufOob ∧ s.bufLen ≤ s.bptr.toNat ∨ f = .badAnswer ∧ 256 ≤ nextAnswer s) ∧ KeepsStatus s (stepRByte s) := by
  unfold stepRByte at h ⊢
  split at h
  next hb => exact ⟨.inl ⟨by simpa using h.symm, hb⟩, by simp [hb, KeepsStatus]⟩
  next hb =>
    obtain ⟨hf, hn, hk⟩ := rxRead_fault (fun _ _ => rfl) h
    rw [if_neg hb]
    exact ⟨.inr ⟨hf, hn⟩, hk⟩

end Answers

/-- R27: the sequencer enters FAULT for a cause only, and keeps STATUS there. -/
theorem perform_fault {s : State} {f : EngineFault} (hs : s.seq.isFault = false) (h : (perform s).seq = .fault f) :
    FaultCause s f ∧ KeepsStatus s (perform s) := by
  cases hq : s.seq <;> simp only [perform, hq] at h ⊢
  case fault => simp [hq, Seq.isFault] at hs
  case wData =>
    obtain ⟨rfl, hb, hk⟩ := stepWData_fault h
    exact ⟨.inl ⟨hq, hb⟩, hk⟩
  case rByte =>
    obtain ⟨⟨rfl, hb⟩ | ⟨rfl, hn⟩, hk⟩ := stepRByte_fault h
    · exact ⟨.inr ⟨hq, hb⟩, hk⟩
    · exact ⟨.inr (.inr (.inr ⟨hq, hn⟩)), hk⟩
  case wEnd =>
    obtain ⟨rfl, hn, hk⟩ := txEnd_fault (fun _ t => by split; exacts [chunkWritten_isFault t, rfl]) h
    exact ⟨.inl ⟨.inl hq, hn⟩, hk⟩
  case pEnd =>
    obtain ⟨rfl, hn, hk⟩ := txEnd_fault (fun _ t => by split; exacts [nextWriteChunk_isFault t, rfl]) h
    exact ⟨.inl ⟨.inr (.inl hq), hn⟩, hk⟩
  case aEnd =>
    obtain ⟨rfl, hn, hk⟩ := txEnd_fault (fun _ _ => rfl) h
    exact ⟨.inl ⟨.inr (.inr hq), hn⟩, hk⟩
  case rReq =>
    obtain ⟨rfl, hn, hk⟩ := rxRequest_fault (by intros; split <;> rfl) h
    exact ⟨.inr (.inl ⟨hq, hn⟩), hk⟩
  case rAvail =>
    obtain ⟨rfl, hn, hk⟩ := rxAvailable_fault (by intros; split <;> rfl) h
    exact ⟨.inr (.inr (.inl ⟨hq, hn⟩)), hk⟩
  case wSettle => exact absurd h (not_fault_of_isFault_false (nextWriteChunk_isFault _))
  case rTmark =>
    unfold stepRTmark at h
    split at h
    · exact absurd h (not_fault_of_isFault_false (nextReadChunk_isFault _))
    · cases h
  case wPchk =>
    unfold stepWPchk at h
    split at h <;> cases h
  case rTchk =>
    unfold stepRTchk at h
    split at h <;> cases h
  case idle => simp [hq] at h
  all_goals cases h

/-- Taking the host's "no move" leaves the transport's next answer. -/
@[simp] theorem nextAnswer_dropPass (s : State) : nextAnswer (dropPass s) = nextAnswer s := by
  simp [nextAnswer]

/-- R27: the step into FAULT has a cause and keeps STATUS. -/
theorem step_fault {s t : State} {f : EngineFault} (hstep : step s = .next t) (hs : s.seq.isFault = false)
    (ht : t.seq = .fault f) : KeepsStatus s t ∧ FaultCause s f := by
  have hsf := not_fault_of_isFault_false (f := f) hs
  rcases step_cases hstep with ⟨-, rfl⟩ | ⟨reg, n, -, rfl⟩ | ⟨word, reasons, -, rfl⟩ | ⟨i, r, -, -, -, rfl⟩ | ⟨-, rfl⟩
  · simp [hostReset, State.reset] at ht
  · simp [hostAnswered, hsf] at ht
  · simp [refuse, hsf] at ht
  · exact absurd ht (not_fault_of_isFault_false (by simpa using startOf_isFault i _))
  · obtain ⟨hc, hk⟩ := perform_fault (by simpa using hs) ht
    refine ⟨by simpa [KeepsStatus] using hk, ?_⟩
    cases f <;> simpa [FaultCause] using hc

/-- R27: no step but a reset leaves FAULT, and none changes STATUS in it. -/
theorem step_keeps_fault {s t : State} {f : EngineFault} (hq : s.seq = .fault f) (hstep : step s = .next t)
    (hr : s.inbox.head? ≠ some .reset) : t.seq = .fault f ∧ KeepsStatus s t := by
  rcases step_cases hstep with ⟨hb, -⟩ | ⟨reg, n, -, rfl⟩ | ⟨word, reasons, -, rfl⟩ | ⟨i, r, -, -, hn, -⟩ | ⟨-, rfl⟩
  · exact absurd hb hr
  · simp [hostAnswered, KeepsStatus, hq]
  · simp [refuse, KeepsStatus, hq]
  · cases hq.symm.trans (refuseReasons_eq_nil.mp hn).1
  · simp [perform, KeepsStatus, hq]

/-- Settles O34: the step into FAULT by the cases of a step, and for the steps in it that an Issue finds STATE not IDLE. -/
theorem faultIsTerminal : Obligations.FaultIsTerminal := by
  unfold Obligations.FaultIsTerminal
  refine ⟨fun s t f hstep hs ht => ?_, fun s f hq => ⟨fun t hstep hr => step_keeps_fault hq hstep hr, ?_, ?_⟩⟩
  · obtain ⟨hk, hc⟩ := step_fault hstep hs ht
    cases f with
    | bufOob => exact ⟨hk, .inl ⟨rfl, hc⟩⟩
    | badAnswer => exact ⟨hk, .inr ⟨rfl, hc⟩⟩
  · intro r hf
    obtain ⟨reasons, hs⟩ := step_refuses_of_not_idle hf (by simp [hq])
    exact ⟨_, hs, by simp [refuse]⟩
  · intro hr
    exact ⟨_, step_of_reset hr, by simp [hostReset, State.reset]⟩

end Sys2Proof.Machine

/-! ## Buffer bounds (spec/20_memory.md R51): the proof of OutOfBoundsAccessFaults and the lemmas it needs -/

namespace Sys2Proof.Machine

open Sys2Proof.Safety

/-! ### A step of a running command -/

/-- R187: a host that passes or waits in a synchronous call issues nothing while a command runs. -/
theorem fetch_eq_none_of_hostQuiet {s : State} (hh : hostQuiet s = true) (hr : s.seq.running = true) :
    fetch s = none := by
  unfold hostQuiet at hh
  split at hh
  next hin => simp only [fetch, hin]
  next hin => simp only [fetch, hin]
  next hin => simp only [fetch, hin, hr, if_true]
  next => cases hh

/-- A running command's sequencer has not stopped: it performs the primitive of STATE. -/
theorem sequencerStep_of_running {s : State} (hr : s.seq.running = true) :
    sequencerStep s = .next (perform (dropPass s)) := by
  unfold sequencerStep
  split
  next f hq _ => simp [hq, Seq.running, Seq.isFault] at hr
  next => rfl

/-- While a command runs and the host makes no move, a step is the primitive of STATE. -/
theorem step_of_hostQuiet {s : State} (hh : hostQuiet s = true) (hr : s.seq.running = true) :
    step s = .next (perform (dropPass s)) := by
  have hf := fetch_eq_none_of_hostQuiet hh hr
  rcases nextActivity_cases s with ⟨hb, -⟩ | ⟨reg, hb, -⟩ | ⟨r, i, hf', -⟩ | ⟨r, hf', -⟩ | ⟨-, -, i, -, ha⟩ | ⟨-, ha⟩
  · obtain ⟨rest, hin⟩ := List.head?_eq_some_iff.mp hb
    simp [hostQuiet, hin] at hh
  · obtain ⟨rest, hin⟩ := List.head?_eq_some_iff.mp hb
    simp [hostQuiet, hin] at hh
  · cases hf.symm.trans hf'
  · cases hf.symm.trans hf'
  · simp only [step, ha, exec_eq, command_running hf, sequencerStep_of_running hr]
  · simp only [step, ha, sequencerStep_of_running hr]

/-! ### The two accesses of the buffer -/

/-- Only a running command accesses BUF: in W_DATA and in R_BYTE. -/
theorem running_of_bufOobCause {s : State} (h : FaultCause s .bufOob) : s.seq.running = true := by
  obtain ⟨hq, -⟩ | ⟨hq, -⟩ := h <;> rw [hq] <;> rfl

/-- R51: the whole of a primitive whose access is out of bounds is fault(BUF_OOB). -/
theorem perform_of_bufOobCause {s : State} (h : FaultCause s .bufOob) : perform s = enterFault .bufOob s := by
  obtain ⟨hq, hb⟩ | ⟨hq, hb⟩ := h <;> simp only [perform, hq]
  · exact if_pos hb
  · exact if_pos hb

/-- Taking the host's "no move" leaves STATE, BPTR, CIDX and BUFLEN, so the access is where it was. -/
@[simp] theorem bufOobCause_dropPass (s : State) : FaultCause (dropPass s) .bufOob ↔ FaultCause s .bufOob := by
  simp [FaultCause]

/-- Settles O32: the step performs the access, and in its place enters FAULT, which changes STATE and TIME only. -/
theorem outOfBoundsAccessFaults : Obligations.OutOfBoundsAccessFaults := by
  unfold Obligations.OutOfBoundsAccessFaults
  intro s hh hb
  have hc : FaultCause s .bufOob := hb
  refine ⟨enterFault .bufOob (dropPass s), ?_, ?_⟩
  · rw [step_of_hostQuiet hh (running_of_bufOobCause hc), perform_of_bufOobCause ((bufOobCause_dropPass s).mpr hc)]
  · simp [KeepsProgress, KeepsStatus]

end Sys2Proof.Machine

/-! ## The opcode map (spec/30_encoding.md R76): the proof of OpcodeMapRows and the lemmas it needs -/

namespace Sys2Proof

open Laws.EncodeDecode

/-- R76: the row found for a command's match builds that command from its BUS. -/
theorem exists_row_of_low (i : Instr) :
    ∃ row, opcodeRows.find? (fun r => r.low == i.low) = some row ∧ row.build i.bus = i := by
  cases i <;> exact ⟨_, rfl, rfl⟩

/-- Every command is what its word decodes to. -/
theorem decode_encode (i : Instr) : decode (encode i) = some i := by
  obtain ⟨row, hrow, hbuild⟩ := exists_row_of_low i
  rw [encode, decode_append i.bus i.low row hrow, hbuild]

/-- A word is a command's word exactly when its two bytes are the command's match and BUS. -/
theorem encode_eq_iff {w : CmdWord} {i : Instr} : encode i = w ↔ lowByte w = i.low ∧ busField w = i.bus := by
  constructor
  · rintro rfl
    exact ⟨lowByte_append i.bus i.low, busField_append i.bus i.low⟩
  · rintro ⟨hlow, hbus⟩
    rw [encode, ← hlow, ← hbus, busField_append_lowByte]

/-- R76: a word decodes to a command exactly when its two bytes are the command's match and BUS. -/
theorem decode_eq_some_iff {w : CmdWord} {i : Instr} :
    decode w = some i ↔ lowByte w = i.low ∧ busField w = i.bus := by
  rw [← encode_eq_iff]
  exact ⟨encode_of_decode, fun h => h ▸ decode_encode i⟩

/-- Settles O3: each row is `decode_eq_some_iff` at its command, whose match and BUS are the row's. -/
theorem opcodeMapRows : Obligations.OpcodeMapRows := by
  unfold Obligations.OpcodeMapRows
  intro w bus
  and_intros <;> exact decode_eq_some_iff

end Sys2Proof

/-! ## The write sequence (spec/40_write.md): the proofs of its rows and invariants and the lemmas they need -/

namespace Sys2Proof.Machine

open Sys2Proof.Safety

/-! ### NextWriteChunk and NextReadChunk -/

/-- R101: CHUNK holds the size of the next write chunk, which its eight bits can. -/
theorem writeChunk_toNat (s : State) :
    (BitVec.ofNat 8 (min (bytesToBoundary s) s.rem.toNat)).toNat = min (bytesToBoundary s) s.rem.toNat := by
  have hb : bytesToBoundary s ≤ 64 := (bytesToBoundary_bounds s).2
  rw [BitVec.toNat_ofNat]
  omega

/-- R132: CHUNK holds the size of the next read chunk, which its eight bits can. -/
theorem readChunk_toNat (s : State) :
    (BitVec.ofNat 8 (min s.params.readCap s.rem.toNat)).toNat = min s.params.readCap s.rem.toNat := by
  have hc := (readCap_bounds s.params).2
  rw [BitVec.toNat_ofNat]
  omega

theorem rem_toNat_eq_zero {s : State} : s.rem.toNat = 0 ↔ s.rem = 0#17 :=
  BitVec.toNat_inj (y := 0#17)

/-- Settles O21: the two cases of each function, with the bounds of R101 and R5. -/
theorem nextChunkSizes : Obligations.NextChunkSizes := by
  unfold Obligations.NextChunkSizes
  intro s
  refine ⟨fun h => ⟨if_pos h, if_pos h⟩, fun h => ?_⟩
  have hr : s.rem.toNat ≠ 0 := mt rem_toNat_eq_zero.mp h
  obtain ⟨hb, hb'⟩ : 1 ≤ bytesToBoundary s ∧ bytesToBoundary s ≤ 64 := bytesToBoundary_bounds s
  have hc := (readCap_bounds s.params).1
  have hw := writeChunk_toNat s
  have hm := readChunk_toNat s
  exact ⟨_, _, if_neg h, hw, by omega, by omega, if_neg h, hm, by omega, by omega⟩

/-- NextWriteChunk goes on as R101 says from the state the step has come to. -/
theorem nextWriteChunk_continues {q : Seq} {events : List Event} {s u : State} (h : GoesOn q events s u) :
    WriteContinues u.cursor.toNat u.rem.toNat events s (nextWriteChunk u) := by
  obtain ⟨-, hb, hr, hv, hh⟩ := h
  unfold WriteContinues
  rcases nextWriteChunk_cases u with ⟨h0, hn⟩ | ⟨h0, hn⟩ <;> rw [hn]
  · rw [if_pos (rem_toNat_eq_zero.mpr h0)]
    simp [Finished, hh]
  · rw [if_neg (mt rem_toNat_eq_zero.mp h0)]
    exact ⟨⟨rfl, hb, hr, hv, hh⟩, writeChunk_toNat u, rfl⟩

/-! ### A step of a running sequence -/

/-- R26: the step of a running state, where the host is quiet, leaves what its primitive does. -/
theorem eq_perform_of_step {s t : State} (hh : hostQuiet s = true) (hr : s.seq.running = true)
    (h : step s = .next t) : t = perform (dropPass s) := by
  cases (step_of_hostQuiet hh hr).symm.trans h
  rfl

theorem running_of_inWrite {q : Seq} (h : inWrite q = true) : q.running = true := by
  cases q with
  | idle | fault => cases h
  | _ => rfl

theorem running_of_inRead {q : Seq} (h : inRead q = true) : q.running = true := by
  cases q with
  | idle | fault => cases h
  | _ => rfl

/-! ### The primitives that take an answer -/

/-- TxEnd with a raw answer of the type (R12). -/
theorem txEnd_of_status {s : State} {status : TxStatus} (k : TxStatus → State → State)
    (h : TxStatus.ofRaw (nextAnswer s) = some status) :
    txEnd s k = k status (advance 0 (record (.endTx status) (dropAnswer s))) := by
  simp only [txEnd, h]

section Elim

variable {P : State → Prop} {s : State}

/-- What TxEnd leaves has a property that its continuation gives for every close status and that FAULT has. -/
theorem txEnd_elim {k : TxStatus → State → State}
    (hk : ∀ status, P (k status (advance 0 (record (.endTx status) (dropAnswer s)))))
    (hf : P (enterFault .badAnswer (dropAnswer s))) : P (txEnd s k) := by
  rcases txEnd_cases s k with ⟨status, -, h⟩ | ⟨-, h⟩
  · exact h ▸ hk status
  · exact h ▸ hf

/-- The same of RxRequest, for every count. -/
theorem rxRequest_elim {a n : Byte} {k : Byte → State → State}
    (hk : ∀ m, P (k m (advance 0 (record (.req a n m) (dropAnswer s)))))
    (hf : P (enterFault .badAnswer (dropAnswer s))) : P (rxRequest a n s k) := by
  rcases rxRequest_cases a n s k with ⟨-, h⟩ | ⟨-, h⟩
  · exact h ▸ hk _
  · exact h ▸ hf

/-- The same of RxAvailable. -/
theorem rxAvailable_elim {k : Bool → State → State}
    (hk : ∀ v, P (k v (advance 0 (record (.avail v) (dropAnswer s)))))
    (hf : P (enterFault .badAnswer (dropAnswer s))) : P (rxAvailable s k) := by
  rcases rxAvailable_cases s k with ⟨-, h⟩ | ⟨-, h⟩
  · exact h ▸ hk _
  · exact h ▸ hf

/-- The same of RxRead, for every byte. -/
theorem rxRead_elim {k : Byte → State → State}
    (hk : ∀ b, P (k b (advance 0 (record (.rd b) (dropAnswer s)))))
    (hf : P (enterFault .badAnswer (dropAnswer s))) : P (rxRead s k) := by
  rcases rxRead_cases s k with ⟨-, h⟩ | ⟨-, h⟩
  · exact h ▸ hk _
  · exact h ▸ hf

end Elim

/-! ### The rows W_BEGIN to W_END -/

/-- R103: the step of W_END with its close status. -/
theorem step_of_wEnd {s : State} {status : TxStatus} (hh : hostQuiet s = true) (hq : s.seq = .wEnd)
    (hst : TxStatus.ofRaw (nextAnswer s) = some status) :
    step s = .next
      (if status = .ok then chunkWritten (advance 0 (record (.endTx status) (dropAnswer (dropPass s))))
        else finish (resultOf status) (advance 0 (record (.endTx status) (dropAnswer (dropPass s))))) := by
  rw [step_of_hostQuiet hh (by rw [hq]; rfl)]
  simp only [perform, dropPass_seq, hq, stepWEnd]
  rw [txEnd_of_status _ (by simpa using hst)]

/-- Settles O22: each row is the primitive of its state; W_DATA by its bound, W_END by its close status. -/
theorem writeChunkTransmission : Obligations.WriteChunkTransmission := by
  unfold Obligations.WriteChunkTransmission
  intro s hh
  have hstep {q : Seq} (hq : s.seq = q) (hr : q.running = true) : step s = .next (perform (dropPass s)) :=
    step_of_hostQuiet hh (hq ▸ hr)
  refine ⟨fun hq => ⟨_, hstep hq rfl, ?_⟩, fun hq => ⟨_, hstep hq rfl, ?_⟩,
    fun hq => ⟨_, hstep hq rfl, ?_⟩, fun hq => ⟨_, hstep hq rfl, ?_⟩, fun hq status hst => ?_⟩
  · simp [perform, hq, stepWBegin, GoesOn, busOf]
  · simp [perform, hq, stepWAhi, GoesOn, offsetHigh]
  · simp [perform, hq, stepWAlo, GoesOn, offsetLow]
  · split
    next hb => simp [perform, hq, stepWData, writeIndex, hb, GoesOn]
    next hb => simp [perform, hq, stepWData, writeIndex, hb, GoesOn, BitVec.lt_def]
  · refine ⟨_, step_of_wEnd hh hq hst, ?_⟩
    split <;> simp [chunkWritten]

/-! ### The close of a data chunk -/

/-- R101, R108: a data chunk is part of what is left, so its bytes fit the device and the registers. -/
theorem chunk_bounds {s : State} (hi : EngineInv s) (hq : inDataChunk s.seq = true) :
    1 ≤ s.chunk.toNat ∧ s.chunk.toNat ≤ s.rem.toNat ∧ s.chunk.toNat ≤ bytesToBoundary s
      ∧ ProgressInv s := by
  obtain ⟨-, -, -, hprog, hdata, -⟩ := hi
  obtain ⟨hrem, hchunk, -⟩ := hdata hq
  have hb := (bytesToBoundary_bounds s).1
  have hp := hprog (by simp [inWrite, hq])
  exact ⟨by omega, by omega, by omega, hp⟩

/-- R104: SETTLE chooses the completion wait. -/
theorem chunkWritten_seq (s : State) :
    (chunkWritten s).seq = if s.settle.toNat > 0 then .wSettle else .wPmark := by
  simp only [chunkWritten, gt_iff_lt, BitVec.toNat_pos, BitVec.pos_iff_ne_zero, ne_eq, ite_not]

/-- R103: a chunk that closed OK changes neither STATUS nor HIST. -/
theorem chunkWritten_goesOn {q : Seq} {events : List Event} {s u : State} (h : GoesOn q events s u) :
    GoesOn (if u.settle.toNat > 0 then .wSettle else .wPmark) events s (chunkWritten u) := by
  obtain ⟨-, hrest⟩ := h
  exact ⟨chunkWritten_seq u, hrest⟩

/-- R103: BPTR and REM hold the sum and the difference exactly. -/
theorem chunkWritten_progress {s : State} (hc : s.chunk.toNat ≤ s.rem.toNat)
    (hp : s.bptr.toNat + s.rem.toNat ≤ Config.CAPACITY) :
    (chunkWritten s).bptr.toNat = s.bptr.toNat + s.chunk.toNat
      ∧ (chunkWritten s).cursor.toNat = (s.cursor.toNat + s.chunk.toNat) % 65536
      ∧ (chunkWritten s).rem.toNat + s.chunk.toNat = s.rem.toNat := by
  simp only [Config.CAPACITY] at hp
  simp only [chunkWritten, cursorPlus, BitVec.toNat_ofNat, true_and]
  omega

/-- Settles O23: the step of W_END, whose sum and difference fit the registers by ProgressInv. -/
theorem writeChunkClose : Obligations.WriteChunkClose := by
  unfold Obligations.WriteChunkClose
  intro s hi hh hq status hst
  have hgo : GoesOn .wEnd [.endTx status] s (advance 0 (record (.endTx status) (dropAnswer (dropPass s)))) := by
    simp [GoesOn, hq]
  refine ⟨_, step_of_wEnd hh hq hst, ?_⟩
  split
  next hok =>
    obtain ⟨-, hrem, -, hsum, hle, -⟩ := chunk_bounds hi (by rw [hq]; rfl)
    have hadvanced := chunkWritten_progress
      (s := advance 0 (record (.endTx status) (dropAnswer (dropPass s)))) (by simpa using hrem)
      (by simpa using hsum.trans_le hle)
    subst hok
    exact ⟨by simpa using chunkWritten_goesOn hgo, by simpa using hadvanced⟩
  next => simp [Finished, KeepsProgress]

/-- Settles O48: a chunk is no longer than the bytes to the boundary, and than what is left within the device. -/
theorem noChunkCrossesAPage : Obligations.NoChunkCrossesAPage := by
  unfold Obligations.NoChunkCrossesAPage
  intro s hi hq
  obtain ⟨hpos, hrem, hpage, -, -, hcap⟩ := chunk_bounds hi hq
  simp only [bytesToBoundary, Config.PAGE, Config.CAPACITY] at *
  omega

/-! ### What a step of a running sequence can do -/

/-- Why a step in STATE q with REM bytes left finishes with r (the last column of R180). -/
inductive FinishCause (q : Seq) (rem : BitVec 17) (r : ResultCode) : Prop
  /-- No byte is left at the end of a chunk (R101, R132). -/
  | nothingLeft (row : q = .wSettle ∨ q = .pEnd ∨ q = .rTmark) (left : rem = 0#17) (result : r = .success)
  /-- A data chunk did not close OK (R103). -/
  | chunkFailed (row : q = .wEnd) (status : TxStatus) (failed : status ≠ .ok) (result : r = resultOf status)
  /-- The address-only transaction closed (R121). -/
  | addressed (row : q = .aEnd) (status : TxStatus) (result : r = resultOf status)
  /-- The clock check failed (R105, R135). -/
  | timedOut (row : q = .wPchk ∨ q = .rTchk) (result : r = .timeout)
  /-- A request got another count than it asked for (R133). -/
  | wrongCount (row : q = .rReq) (result : r = .unexpectedDataLength)

/-- The operands, CURSOR, REM and BPTR are as before. -/
def KeepsRun (s t : State) : Prop := KeepsOperands s t ∧ KeepsProgress s t

theorem KeepsRun.rem {s t : State} (h : KeepsRun s t) : t.rem = s.rem := by
  obtain ⟨-, -, hrem, -⟩ := h
  exact hrem

@[simp] theorem keepsOperands_dropPass {s t : State} : KeepsOperands (dropPass s) t ↔ KeepsOperands s t := by
  simp [KeepsOperands]

@[simp] theorem keepsRun_dropPass {s t : State} : KeepsRun (dropPass s) t ↔ KeepsRun s t := by
  simp [KeepsRun, KeepsProgress]

/-- A primitive that takes no answer. -/
theorem keepsRun_primitive (k : Nat) (e : Event) (s : State) : KeepsRun s (advance k (record e s)) := by
  simp [KeepsRun, KeepsOperands, KeepsProgress]

/-- A primitive that takes an answer within its type. -/
theorem keepsRun_answered (e : Event) (s : State) : KeepsRun s (advance 0 (record e (dropAnswer s))) := by
  simp [KeepsRun, KeepsOperands, KeepsProgress]

/-- What a step of a running sequence can do. -/
inductive StepEffect (s t : State) : Prop
  /-- It finishes. -/
  | finishes (cause : FinishCause s.seq s.rem t.result) (seq : t.seq = .idle) (keeps : KeepsRun s t)
  /-- The completion wait is over and a data chunk starts (R101). -/
  | startsWriteChunk (wait : s.seq = .wSettle ∨ s.seq = .pEnd) (rem : s.rem ≠ 0#17) (seq : t.seq = .wBegin)
      (keeps : KeepsRun s t)
  /-- Bytes went out or came in: BPTR and CURSOR advance (R103, R134). -/
  | advances (k : Nat) (row : s.seq = .wEnd ∨ s.seq = .rByte) (goesOn : t.seq ≠ .idle ∧ t.seq ≠ .wBegin)
      (keeps : KeepsOperands s t) (cursor : t.cursor = cursorPlus s k)
      (bptr : t.bptr = BitVec.ofNat 17 (s.bptr.toNat + k))
  /-- It goes on in another row, starts a read chunk, or enters FAULT. -/
  | goesOn (seq : t.seq ≠ .idle ∧ t.seq ≠ .wBegin) (keeps : KeepsRun s t)

theorem nextWriteChunk_effect {s u : State} (hq : s.seq = .wSettle ∨ s.seq = .pEnd) (hk : KeepsRun s u) :
    StepEffect s (nextWriteChunk u) := by
  have hrem : u.rem = s.rem := hk.rem
  rcases nextWriteChunk_cases u with ⟨h0, h⟩ | ⟨h0, h⟩ <;> rw [h]
  · exact .finishes (.nothingLeft (hq.imp_right .inl) (hrem ▸ h0) rfl) rfl hk
  · exact .startsWriteChunk hq (hrem ▸ h0) rfl hk

theorem nextReadChunk_effect {s u : State} (hq : s.seq = .rTmark) (hk : KeepsRun s u) :
    StepEffect s (nextReadChunk u) := by
  have hrem : u.rem = s.rem := hk.rem
  rcases nextReadChunk_cases u with ⟨h0, h⟩ | ⟨h0, h⟩ <;> rw [h]
  · exact .finishes (.nothingLeft (.inr (.inr hq)) (hrem ▸ h0) rfl) rfl hk
  · exact .goesOn ⟨nofun, nofun⟩ hk

/-- R26: the effect of the primitive of each running state. A step into FAULT has no other effect (R27, R51, R191). -/
theorem perform_effect {s : State} (hr : s.seq.running = true) : StepEffect s (perform s) := by
  have hoob : StepEffect s (enterFault .bufOob s) :=
    .goesOn (by simp) (by simp [KeepsRun, KeepsOperands, KeepsProgress])
  have hbad : StepEffect s (enterFault .badAnswer (dropAnswer s)) :=
    .goesOn (by simp) (by simp [KeepsRun, KeepsOperands, KeepsProgress])
  have hclock : KeepsRun s (clkMillis s) := keepsRun_primitive _ _ s
  have hmark : KeepsRun s (markTime s) := hclock
  have hsleep (k : Millis) : KeepsRun s (clkSleep k s) := keepsRun_primitive _ _ s
  have hwrite (b : Byte) : KeepsRun s (txWrite b s) := keepsRun_primitive _ _ s
  cases hq : s.seq <;> simp only [perform, hq]
  case idle | fault => simp [hq, Seq.running, Seq.isFault] at hr
  case wData =>
    unfold stepWData
    split
    · exact hoob
    · exact .goesOn (by dsimp only; split <;> exact ⟨nofun, nofun⟩) (hwrite _)
  case wEnd =>
    refine txEnd_elim (fun status => ?_) hbad
    split
    next =>
      refine .advances s.chunk.toNat (.inl hq) ?_ (keepsRun_answered _ s).1
        (by simp [chunkWritten, cursorPlus]) (by simp [chunkWritten])
      rw [chunkWritten_seq]
      split <;> exact ⟨nofun, nofun⟩
    next hs => exact .finishes (.chunkFailed hq _ hs rfl) rfl (keepsRun_answered _ s)
  case wSettle => exact nextWriteChunk_effect (.inl hq) (hsleep _)
  case pEnd =>
    refine txEnd_elim (fun status => ?_) hbad
    split
    · exact nextWriteChunk_effect (.inr hq) (keepsRun_answered _ s)
    · exact .goesOn ⟨nofun, nofun⟩ (keepsRun_answered _ s)
  case wPchk =>
    unfold stepWPchk
    split
    · exact .finishes (.timedOut (.inl hq) rfl) rfl hclock
    · exact .goesOn ⟨nofun, nofun⟩ hclock
  case rReq =>
    refine rxRequest_elim (fun m => ?_) hbad
    split
    · exact .goesOn ⟨nofun, nofun⟩ (keepsRun_answered _ s)
    · exact .finishes (.wrongCount hq rfl) rfl (keepsRun_answered _ s)
  case rAvail =>
    refine rxAvailable_elim (fun v => ?_) hbad
    exact .goesOn (by dsimp only; split <;> exact ⟨nofun, nofun⟩) (keepsRun_answered _ s)
  case rByte =>
    unfold stepRByte
    split
    · exact hoob
    · refine rxRead_elim (fun b => ?_) hbad
      exact .advances 1 (.inr hq) ⟨nofun, nofun⟩ (keepsRun_answered _ s).1
        (by simp [byteReceived, cursorPlus]) (by simp [byteReceived])
  case rTmark =>
    unfold stepRTmark
    split
    · exact nextReadChunk_effect hq hmark
    · exact .goesOn ⟨nofun, nofun⟩ hmark
  case rTchk =>
    unfold stepRTchk
    split
    · exact .finishes (.timedOut (.inr hq) rfl) rfl hclock
    · exact .goesOn ⟨nofun, nofun⟩ hclock
  case aEnd =>
    exact txEnd_elim (fun status => .finishes (.addressed hq status rfl) rfl (keepsRun_answered _ s)) hbad
  case wPmark | rMark => exact .goesOn ⟨nofun, nofun⟩ hmark
  case wPsleep => exact .goesOn ⟨nofun, nofun⟩ (hsleep _)
  case wBegin | pBegin | aBegin => exact .goesOn ⟨nofun, nofun⟩ (keepsRun_primitive _ _ s)
  case wAhi | wAlo | pAhi | pAlo | aAhi | aAlo => exact .goesOn ⟨nofun, nofun⟩ (hwrite _)

/-- The effect of a step of a running sequence where the host is quiet. -/
theorem step_effect {s t : State} (hh : hostQuiet s = true) (hr : s.seq.running = true) (h : step s = .next t) :
    StepEffect s t := by
  rw [eq_perform_of_step hh hr h]
  have he := perform_effect (s := dropPass s) (by simpa using hr)
  cases he with
  | finishes cause seq keeps => exact .finishes (by simpa using cause) seq (keepsRun_dropPass.mp keeps)
  | startsWriteChunk wait rem seq keeps =>
    exact .startsWriteChunk (by simpa using wait) (by simpa using rem) seq (keepsRun_dropPass.mp keeps)
  | advances k row goesOn keeps cursor bptr =>
    exact .advances k (by simpa using row) goesOn (keepsOperands_dropPass.mp keeps)
      (by simpa [cursorPlus] using cursor) (by simpa using bptr)
  | goesOn seq keeps => exact .goesOn seq (keepsRun_dropPass.mp keeps)

/-- Only a finish leads to IDLE. -/
theorem StepEffect.finishCause {s t : State} (h : StepEffect s t) (ht : t.seq = .idle) :
    FinishCause s.seq s.rem t.result ∧ KeepsRun s t := by
  cases h with
  | finishes hcause _ hk => exact ⟨hcause, hk⟩
  | startsWriteChunk _ _ hseq => cases hseq.symm.trans ht
  | advances _ _ hseq => exact absurd ht hseq.1
  | goesOn hseq => exact absurd ht hseq.1

/-- A step advances CURSOR and BPTR by one number of bytes, or leaves them. -/
theorem StepEffect.keepsRun_or_advances {s t : State} (h : StepEffect s t) :
    KeepsRun s t ∨ ((s.seq = .wEnd ∨ s.seq = .rByte)
      ∧ ∃ k, t.cursor = cursorPlus s k ∧ t.bptr = BitVec.ofNat 17 (s.bptr.toNat + k)) := by
  cases h with
  | finishes _ _ hk => exact .inl hk
  | startsWriteChunk _ _ _ hk => exact .inl hk
  | advances k hq _ _ hcursor hbptr => exact .inr ⟨hq, k, hcursor, hbptr⟩
  | goesOn _ hk => exact .inl hk

theorem resultOf_ne_timeout (status : TxStatus) : resultOf status ≠ .timeout := by
  cases status <;> exact nofun

theorem resultOf_ne_success {status : TxStatus} (h : status ≠ .ok) : resultOf status ≠ .success := by
  cases status
  case ok => exact absurd rfl h
  all_goals exact nofun

/-- R105, R135: Timeout comes from a clock check only. -/
theorem FinishCause.of_timeout {q : Seq} {rem : BitVec 17} (h : FinishCause q rem .timeout) :
    q = .wPchk ∨ q = .rTchk := by
  cases h with
  | timedOut hq => exact hq
  | chunkFailed _ status _ hr => exact absurd hr.symm (resultOf_ne_timeout status)
  | addressed _ status hr => exact absurd hr.symm (resultOf_ne_timeout status)
  | nothingLeft _ _ hr => cases hr
  | wrongCount _ hr => cases hr

/-- R101, R132: a write or buffered read finishes with Success where nothing is left only. -/
theorem FinishCause.of_success {q : Seq} {rem : BitVec 17} (h : FinishCause q rem .success) :
    rem = 0#17 ∨ q = .aEnd := by
  cases h with
  | nothingLeft _ hrem => exact .inl hrem
  | addressed hq => exact .inr hq
  | chunkFailed _ status hs hr => exact absurd hr.symm (resultOf_ne_success hs)
  | timedOut _ hr => cases hr
  | wrongCount _ hr => cases hr

/-! ### The completion wait, and what a write has moved -/

theorem clkSleep_time (k : Millis) (s : State) : s.time + k.toNat ≤ (clkSleep k s).time :=
  advance_time k.toNat (record (.sleep k) s)

theorem nextWriteChunk_time (s : State) : (nextWriteChunk s).time = s.time := by
  unfold nextWriteChunk
  split <;> rfl

/-- R106: the step of W_SETTLE. -/
theorem step_of_wSettle {s : State} (hh : hostQuiet s = true) (hq : s.seq = .wSettle) :
    step s = .next (nextWriteChunk (clkSleep s.settle (dropPass s))) := by
  rw [step_of_hostQuiet hh (by rw [hq]; rfl)]
  simp only [perform, dropPass_seq, hq, stepWSettle, dropPass_settle]

/-- R104, R105: a write that finishes with Timeout polls, so its SETTLE is 0. -/
theorem settle_eq_zero_of_timeout {s t : State} (hi : EngineInv s) (hw : inWrite s.seq = true) (he : StepEffect s t)
    (ht : t.seq = .idle) (hto : t.result = .timeout) : s.settle = 0#32 := by
  obtain ⟨-, -, -, -, -, hwait, -⟩ := hi
  rcases (hto ▸ (he.finishCause ht).1).of_timeout with hq | hq
  · have hpoll : inPoll s.seq = true := by rw [hq]; rfl
    obtain ⟨-, -, hsettle⟩ := hwait (.inl hpoll)
    exact hsettle hpoll
  · rw [hq] at hw
    cases hw

/-- Settles O24: the row of W_SETTLE, and `settle_eq_zero_of_timeout`. -/
theorem fixedSettleDelay : Obligations.FixedSettleDelay := by
  unfold Obligations.FixedSettleDelay
  refine ⟨fun s hh hq => ⟨_, step_of_wSettle hh hq, ?_, ?_⟩, fun s t hi hh hw hs h ht hto => ?_⟩
  · rw [nextWriteChunk_time]
    simpa using clkSleep_time s.settle (dropPass s)
  · have hgo : GoesOn .wSettle [.sleep s.settle] s (clkSleep s.settle (dropPass s)) := by simp [GoesOn, hq]
    simpa using nextWriteChunk_continues hgo
  · have hsettle := settle_eq_zero_of_timeout hi hw (step_effect hh (running_of_inWrite hw) h) ht hto
    simp [hsettle] at hs

/-- Settles O49: only the end of the wait starts a data chunk, and it leaves the CURSOR that WaitInv speaks of. -/
theorem laterChunksStartOnAPage : Obligations.LaterChunksStartOnAPage := by
  unfold Obligations.LaterChunksStartOnAPage
  intro s t hi hh hw h ht
  obtain ⟨-, -, -, -, -, hwait, -⟩ := hi
  obtain ⟨hpage, -⟩ := hwait hw
  have hr : s.seq.running = true := running_of_inWrite (by rcases hw with hw | hw <;> simp [inWrite, hw])
  cases step_effect hh hr h with
  | startsWriteChunk _ hrem _ hk =>
    obtain ⟨-, hcursor, -⟩ := hk
    rw [hcursor]
    exact hpage.resolve_left (mt rem_toNat_eq_zero.mp hrem)
  | finishes _ hseq => cases hseq.symm.trans ht
  | advances _ _ hseq => exact absurd ht hseq.2
  | goesOn hseq => exact absurd ht hseq.2

/-- Settles O51: Success means REM = 0, and then ProgressInv makes BPTR all of BYTELEN. -/
theorem successMeansEveryByteMoved : Obligations.SuccessMeansEveryByteMoved := by
  unfold Obligations.SuccessMeansEveryByteMoved
  intro s t hi hh hw h ht hs
  obtain ⟨-, -, -, hwrite, -, -, hread, -⟩ := hi
  have hr : s.seq.running = true := hw.elim running_of_inWrite running_of_inRead
  have hp : ProgressInv s := hw.elim hwrite fun h => (hread h).1
  obtain ⟨hcause, ⟨-, -, -, -, hlen, -⟩, -, hrem, hbptr⟩ := (step_effect hh hr h).finishCause ht
  rcases (hs ▸ hcause).of_success with h0 | hq
  · have hsum := hp.1
    rw [hrem, hbptr, hlen, ← hsum, h0]
    exact ⟨rfl, rfl⟩
  · simp [hq, inWrite, inDataChunk, inPoll, inRead] at hw

/-- CURSOR and BPTR wrap alike modulo 2^16 (R21, R29). -/
theorem cursor_sub_bptr_of_advance (s : State) (k : Nat) :
    cursorPlus s k - (BitVec.ofNat 17 (s.bptr.toNat + k)).setWidth 16 = s.cursor - s.bptr.setWidth 16 := by
  simp only [cursorPlus]
  bv_omega

/-- Settles O53: a step moves neither, or both by the same number of bytes. -/
theorem cursorAdvancesWithBptr : Obligations.CursorAdvancesWithBptr := by
  unfold Obligations.CursorAdvancesWithBptr
  intro s t hh hw h
  have hr : s.seq.running = true := hw.elim running_of_inWrite running_of_inRead
  rcases (step_effect hh hr h).keepsRun_or_advances with ⟨-, hcursor, -, hbptr⟩ | ⟨-, k, hcursor, hbptr⟩
  · rw [hcursor, hbptr]
  · rw [hcursor, hbptr, cursor_sub_bptr_of_advance]

end Sys2Proof.Machine

/-! ## Data (spec/40_write.md R111): the proof of DataNeverSteersTheEngine and the lemmas it needs -/

namespace Sys2Proof.Machine

open Sys2Proof.Safety

/-! ### What does not look at the data -/

/-- u with the buffer bytes b, and with the events h before those of HIST. -/
def withData (b : Memory) (h : List Event) (u : State) : State := { u with buf := b, hist := h ++ u.hist }

section Commutes

variable (b : Memory) (h : List Event) (u : State)

theorem advance_withData (k : Nat) : advance k (withData b h u) = withData b h (advance k u) := by
  simp only [advance, nextDelay, withData]
  split <;> rfl

/-- A primitive that takes no answer does the same whatever the data. -/
theorem primitive_withData (k : Nat) (e : Event) :
    advance k (record e (withData b h u)) = withData b h (advance k (record e u)) := by
  rw [← advance_withData]
  simp [record, withData]

theorem dropAnswer_withData : dropAnswer (withData b h u) = withData b h (dropAnswer u) := by
  simp only [dropAnswer, withData]
  split <;> rfl

theorem answered_withData (e : Event) :
    advance 0 (record e (dropAnswer (withData b h u))) = withData b h (advance 0 (record e (dropAnswer u))) := by
  rw [dropAnswer_withData, primitive_withData]

theorem dropPass_withData : dropPass (withData b h u) = withData b h (dropPass u) := by
  simp only [dropPass, withData]
  split <;> rfl

theorem finish_withData (r : ResultCode) : finish r (withData b h u) = withData b h (finish r u) := by
  simp [finish, withData]

theorem enterFault_withData (f : EngineFault) : enterFault f (withData b h u) = withData b h (enterFault f u) :=
  advance_withData b h { u with seq := .fault f } 0

theorem badAnswer_withData : enterFault .badAnswer (dropAnswer (withData b h u))
    = withData b h (enterFault .badAnswer (dropAnswer u)) := by
  rw [dropAnswer_withData, enterFault_withData]

theorem nextWriteChunk_withData : nextWriteChunk (withData b h u) = withData b h (nextWriteChunk u) := by
  unfold nextWriteChunk
  rw [apply_ite (withData b h), finish_withData]
  rfl

theorem nextReadChunk_withData : nextReadChunk (withData b h u) = withData b h (nextReadChunk u) := by
  unfold nextReadChunk
  rw [apply_ite (withData b h), finish_withData]
  rfl

theorem chunkWritten_withData : chunkWritten (withData b h u) = withData b h (chunkWritten u) := rfl

theorem clkMillis_withData : clkMillis (withData b h u) = withData b h (clkMillis u) :=
  primitive_withData b h u 0 (.ms (clockReading u))

theorem markTime_withData : markTime (withData b h u) = withData b h (markTime u) :=
  congrArg (fun v => { v with tmark := clockReading u }) (clkMillis_withData b h u)

theorem byteReceived_withData (x : Byte) :
    byteReceived x (withData b h u) = withData (Memory.write b u.bptr.toNat x) h (byteReceived x u) := rfl

theorem txEnd_withData {k : TxStatus → State → State}
    (hk : ∀ status v, k status (withData b h v) = withData b h (k status v)) :
    txEnd (withData b h u) k = withData b h (txEnd u k) := by
  have ha : nextAnswer (withData b h u) = nextAnswer u := rfl
  simp only [txEnd, ha, answered_withData, badAnswer_withData, hk]
  split <;> rfl

theorem rxRequest_withData (a n : Byte) {k : Byte → State → State}
    (hk : ∀ m v, k m (withData b h v) = withData b h (k m v)) :
    rxRequest a n (withData b h u) k = withData b h (rxRequest a n u k) := by
  have ha : nextAnswer (withData b h u) = nextAnswer u := rfl
  simp only [rxRequest, ha, answered_withData, badAnswer_withData, hk, apply_ite (withData b h)]

theorem rxAvailable_withData {k : Bool → State → State}
    (hk : ∀ v w, k v (withData b h w) = withData b h (k v w)) :
    rxAvailable (withData b h u) k = withData b h (rxAvailable u k) := by
  have ha : nextAnswer (withData b h u) = nextAnswer u := rfl
  simp only [rxAvailable, ha, answered_withData, badAnswer_withData, hk, apply_ite (withData b h)]

/-- R134: the byte received is stored in either buffer. -/
theorem rxRead_withData : ∃ c, rxRead (withData b h u) byteReceived = withData c h (rxRead u byteReceived) := by
  have ha : nextAnswer (withData b h u) = nextAnswer u := rfl
  simp only [rxRead, ha, answered_withData, badAnswer_withData, byteReceived_withData]
  split <;> exact ⟨_, rfl⟩

/-- A row that sets STATE after its primitive. -/
theorem seq_withData {b : Memory} {h : List Event} {v w : State} (e : w = withData b h v) (q : Seq) :
    { w with seq := q } = withData b h { v with seq := q } := by
  rw [e]
  rfl

/-- No primitive but W_DATA's looks at the data, and that one only where its index is in bounds. -/
theorem perform_withData (hd : u.seq = .wData → u.bufLen ≤ writeIndex u) :
    ∃ c, perform (withData b h u) = withData c h (perform u) := by
  have hseq : (withData b h u).seq = u.seq := rfl
  cases hq : u.seq <;> simp only [perform, hseq, hq]
  case wData =>
    unfold stepWData
    rw [if_pos (hd hq), enterFault_withData]
    exact ⟨b, if_pos (hd hq)⟩
  case rByte =>
    unfold stepRByte
    rw [enterFault_withData]
    change ∃ c, (if u.bufLen ≤ u.bptr.toNat then _ else _) = _
    split
    · exact ⟨b, rfl⟩
    · exact rxRead_withData b h u
  all_goals refine ⟨b, ?_⟩
  case idle | fault => exact advance_withData b h u 0
  case wBegin | wAhi | wAlo | wPsleep | pBegin | pAhi | pAlo | aBegin | aAhi | aAlo =>
    exact seq_withData (primitive_withData b h u _ _) _
  case wPmark | rMark => exact seq_withData (markTime_withData b h u) _
  case wSettle => exact (congrArg nextWriteChunk (primitive_withData b h u _ _)).trans (nextWriteChunk_withData b h _)
  case wEnd =>
    refine txEnd_withData b h u fun status v => ?_
    rw [apply_ite (withData b h), finish_withData, chunkWritten_withData]
  case pEnd =>
    refine txEnd_withData b h u fun status v => ?_
    rw [apply_ite (withData b h), nextWriteChunk_withData]
    rfl
  case aEnd => exact txEnd_withData b h u fun status v => finish_withData b h v _
  case rReq =>
    refine rxRequest_withData b h u _ _ fun m v => ?_
    rw [apply_ite (withData b h), finish_withData]
    rfl
  case rAvail => exact rxAvailable_withData b h u fun v w => rfl
  case rTmark =>
    unfold stepRTmark
    rw [markTime_withData, nextReadChunk_withData, apply_ite (withData b h)]
    rfl
  case wPchk =>
    unfold stepWPchk
    rw [clkMillis_withData, finish_withData, apply_ite (withData b h)]
    rfl
  case rTchk =>
    unfold stepRTchk
    rw [clkMillis_withData, finish_withData, apply_ite (withData b h)]
    rfl

theorem startWrite_withData (ty : ElemType) : startWrite ty (withData b h u) = withData b h (startWrite ty u) := by
  simp only [startWrite, apply_ite (withData b h), ← finish_withData, ← nextWriteChunk_withData]
  rfl

theorem startRead_withData (ty : ElemType) : startRead ty (withData b h u) = withData b h (startRead ty u) := by
  simp only [startRead, apply_ite (withData b h), ← finish_withData, ← nextReadChunk_withData]
  rfl

theorem startSeek_withData (ty : ElemType) : startSeek ty (withData b h u) = withData b h (startSeek ty u) := by
  simp only [startSeek, apply_ite (withData b h), ← finish_withData]
  rfl

/-- No issue pseudocode looks at the data (R100, R120, R130). -/
theorem startOf_withData (i : Instr) : startOf i (withData b h u) = withData b h (startOf i u) := by
  cases i
  case addr => rfl
  case writeB | writeU8 | writeI8 | writeU16 | writeI16 | writeU32 | writeI32 | writeF32 | writeF64 =>
    exact startWrite_withData b h u _
  case readB | readU8 | readI8 | readU16 | readI16 | readU32 | readI32 | readF32 | readF64 =>
    exact startRead_withData b h u _
  all_goals exact startSeek_withData b h u _

theorem refuse_withData (word : CmdWord) (reasons : List RefuseReason) :
    refuse word reasons (withData b h u) = withData b h (refuse word reasons u) := by
  simp only [refuse, ← advance_withData]
  simp [withData]

theorem hostAnswered_withData (n : Nat) : hostAnswered n (withData b h u) = withData b h (hostAnswered n u) :=
  advance_withData b h { u with reply := .value n, inbox := u.inbox.tail } 0

/-- The lent bytes take the place of the buffer's (R185). -/
theorem accept_withData (word : CmdWord) (use : BufferUse) (r : IssueReq) :
    accept word use r (withData b h u) = withData (Memory.ofBytes (lentBytes use r)) h (accept word use r u) := by
  simp [accept, withData]

end Commutes

/-- f on the next state; a stop stays as it is. -/
def mapNext (f : State → State) : Host.Outcome State Fault Refusal → Host.Outcome State Fault Refusal
  | .next s => .next (f s)
  | .fault r => .fault r
  | .refused r => .refused r

/-! ### A step -/

section Steps

variable (b : Memory) (h : List Event) {u : State}

theorem command_withData (word : CmdWord) (i : Instr) {r : IssueReq} (hf : fetch u = some r) :
    ∃ c, command word (useOf i) (startOf i) (withData b h u)
      = mapNext (withData c h) (command word (useOf i) (startOf i) u) := by
  have hf' : fetch (withData b h u) = some r := hf
  by_cases hr : refuseReasons true (useOf i) r u = []
  · rw [command_accepted hf hr, command_accepted hf' hr, accept_withData, startOf_withData, advance_withData]
    exact ⟨_, rfl⟩
  · rw [command_refused hf hr, command_refused hf' hr, refuse_withData]
    exact ⟨_, rfl⟩

theorem hostRead_withData {reg : HostReg} (hb : ∀ i, reg ≠ .bufByte i) :
    hostRead reg (withData b h u) = mapNext (withData b h) (hostRead reg u) := by
  cases reg
  case bufByte i => exact absurd rfl (hb i)
  all_goals
    simp only [hostRead, readValue, hostAnswered_withData, apply_ite (mapNext (withData b h))]
    rfl

theorem sequencerStep_withData (hd : u.seq = .wData → u.bufLen ≤ writeIndex u) :
    ∃ c, sequencerStep (withData b h u) = mapNext (withData c h) (sequencerStep u) := by
  obtain ⟨c, hc⟩ := perform_withData b h (dropPass u) (by simpa [writeIndex] using hd)
  refine ⟨c, ?_⟩
  have hs : (withData b h u).seq = u.seq := rfl
  have hi : (withData b h u).inbox = u.inbox := rfl
  simp only [sequencerStep, dropPass_withData, hc, hs, hi]
  split <;> rfl

theorem nextActivity_of_read {s : State} {reg : HostReg} (hm : s.inbox.head? = some (.read reg)) :
    nextActivity s = .hostRead reg := by
  obtain ⟨rest, hin⟩ := List.head?_eq_some_iff.mp hm
  simp only [nextActivity, hin]

/-- Where the host neither issues, resets nor reads, a step is the sequencer's. -/
theorem step_eq_sequencerStep {s : State} (hf : fetch s = none) (hr : s.inbox.head? ≠ some .reset)
    (hd : ∀ reg, s.inbox.head? ≠ some (.read reg)) : step s = sequencerStep s := by
  rcases nextActivity_cases s with ⟨hb, -⟩ | ⟨reg, hb, -⟩ | ⟨r, i, hf', -⟩ | ⟨r, hf', -⟩ | ⟨-, -, i, -, ha⟩
      | ⟨-, ha⟩
  · exact absurd hb hr
  · exact absurd hb (hd reg)
  · cases hf.symm.trans hf'
  · cases hf.symm.trans hf'
  · simp only [step, ha, exec_eq, command_running hf]
  · simp only [step, ha]

/-- A step depends on the data only where the host reads a byte of it, resets, or W_DATA sends one. -/
theorem step_withData (hr : u.inbox.head? ≠ some .reset) (hb : ∀ i, u.inbox.head? ≠ some (.read (.bufByte i)))
    (hd : fetch u = none → (∀ reg, u.inbox.head? ≠ some (.read reg)) → u.seq = .wData →
      u.bufLen ≤ writeIndex u) :
    ∃ c, step (withData b h u) = mapNext (withData c h) (step u) := by
  have ha' : nextActivity (withData b h u) = nextActivity u := rfl
  rcases nextActivity_cases u with ⟨hm, -⟩ | ⟨reg, hm, ha⟩ | ⟨r, i, hf, -, ha⟩ | ⟨r, hf, -, ha⟩
      | ⟨hf, -, i, -, ha⟩ | ⟨hf, ha⟩
  · exact absurd hm hr
  · simp only [step, ha', ha]
    exact ⟨b, hostRead_withData b h fun i hi => hb i (hi ▸ hm)⟩
  · simp only [step, ha', ha, exec_eq]
    exact command_withData b h _ i hf
  · simp only [step, ha', ha, refuseReserved, refuse_withData]
    exact ⟨b, rfl⟩
  · have hf' : fetch (withData b h u) = none := hf
    simp only [step, ha', ha, exec_eq, command_running hf, command_running hf']
    exact sequencerStep_withData b h (hd hf fun reg hm => by cases (nextActivity_of_read hm).symm.trans ha)
  · simp only [step, ha', ha]
    exact sequencerStep_withData b h (hd hf fun reg hm => by cases (nextActivity_of_read hm).symm.trans ha)

end Steps

/-! ### Two runs -/

theorem mapNext_eq_next {f : State → State} {o : Host.Outcome State Fault Refusal} {t : State}
    (h : mapNext f o = .next t) : ∃ v, o = .next v ∧ f v = t := by
  cases o with
  | next v => exact ⟨v, rfl, Host.Outcome.next.inj h⟩
  | fault | refused => cases h

theorem sameButData_withData {b b' : Memory} {h h' : List Event} (v : State)
    (he : h'.map eraseData = h.map eraseData) : SameButData (withData b h v) (withData b' h' v) := by
  simp [SameButData, withData, he]

/-- What W_DATA changes beside HIST where its index is in bounds. -/
def dataByteSent (u : State) : State :=
  { advance 0 u with cidx := u.cidx + 1#8, seq := if u.cidx + 1#8 < u.chunk then .wData else .wEnd }

/-- R102: W_DATA sends the byte of BUF at its index, which changes nothing else. -/
theorem stepWData_withData {b : Memory} {h : List Event} {u : State} (hu : u.hist = [])
    (hb : ¬ u.bufLen ≤ writeIndex u) :
    stepWData (withData b h u) = withData b (h ++ [.wr (Memory.read b (writeIndex u))]) (dataByteSent u) := by
  have hsent (x : Byte) : txWrite x (withData b h u) = withData b (h ++ [.wr x]) (advance 0 u) := by
    rw [← advance_withData]
    simp [txWrite, record, withData, hu]
  refine (if_neg hb).trans ?_
  rw [hsent]
  rfl

/-- The step of W_DATA in bounds, where the host neither issues, resets nor reads. -/
theorem step_of_wData {b : Memory} {h : List Event} {u : State} (hf : fetch u = none)
    (hr : u.inbox.head? ≠ some .reset) (hm : ∀ reg, u.inbox.head? ≠ some (.read reg)) (hq : u.seq = .wData)
    (hu : u.hist = []) (hb : ¬ u.bufLen ≤ writeIndex u) :
    step (withData b h u)
      = .next (withData b (h ++ [.wr (Memory.read b (writeIndex u))]) (dataByteSent (dropPass u))) := by
  have hp : perform (withData b h (dropPass u)) = stepWData (withData b h (dropPass u)) := by
    have hseq : (withData b h (dropPass u)).seq = .wData := by simp [withData, hq]
    simp only [perform, hseq]
  have hrun : (withData b h u).seq.running = true := congrArg Seq.running hq
  rw [step_eq_sequencerStep (s := withData b h u) hf hr hm, sequencerStep_of_running hrun, dropPass_withData, hp,
    stepWData_withData (by simpa using hu) (by simpa [writeIndex] using hb)]
  simp [writeIndex]

/-- A step in two runs that differ in the data: a reset, a step that does not depend on them, or W_DATA's. -/
theorem step_sameButData {b b' : Memory} {h h' : List Event} {u t : State} (hu : u.hist = [])
    (he : h'.map eraseData = h.map eraseData) (hb : ∀ i, u.inbox.head? ≠ some (.read (.bufByte i)))
    (hstep : step (withData b h u) = .next t) :
    ∃ t', step (withData b' h' u) = .next t' ∧ SameButData t t'
      ∧ (u.seq ≠ .wData → t'.hist.drop h'.length = t.hist.drop h.length) := by
  by_cases hr : u.inbox.head? = some .reset
  · rw [step_of_reset (s := withData b h u) hr] at hstep
    cases hstep
    refine ⟨_, step_of_reset (s := withData b' h' u) hr, ⟨rfl, rfl⟩, fun _ => ?_⟩
    simp [hostReset, State.reset]
  by_cases hd : fetch u = none → (∀ reg, u.inbox.head? ≠ some (.read reg)) → u.seq = .wData →
      u.bufLen ≤ writeIndex u
  · obtain ⟨c, hc⟩ := step_withData b h hr hb hd
    obtain ⟨c', hc'⟩ := step_withData b' h' hr hb hd
    obtain ⟨v, hv, rfl⟩ := mapNext_eq_next (hc.symm.trans hstep)
    rw [hv] at hc'
    exact ⟨_, hc', sameButData_withData v he, fun _ => by simp [withData]⟩
  · push Not at hd
    obtain ⟨hf, hm, hq, hlen⟩ := hd
    have hlen : ¬ u.bufLen ≤ writeIndex u := by omega
    rw [step_of_wData hf hr hm hq hu hlen] at hstep
    cases hstep
    refine ⟨_, step_of_wData hf hr hm hq hu hlen, sameButData_withData _ ?_, fun hne => absurd hq hne⟩
    simp [eraseData, he]

/-- Settles O55: both states are one state without data, each with data of its own. -/
theorem dataNeverSteersTheEngine : Obligations.DataNeverSteersTheEngine := by
  unfold Obligations.DataNeverSteersTheEngine
  intro s s' t hd hb hstep
  obtain ⟨hs', he⟩ := hd
  have hs : s = withData s.buf s.hist { s with hist := [] } := by simp [withData]
  rw [hs] at hstep
  obtain ⟨t', ht', hd, hh⟩ :=
    step_sameButData (u := { s with hist := [] }) (b' := s'.buf) (h' := s'.hist) rfl he hb hstep
  exact ⟨t', by simpa [withData, ← hs'] using ht', hd, hh⟩

end Sys2Proof.Machine

/-! ## The poll's bound (spec/40_write.md R107): the proof of FailingPollTimesOut and the lemmas it needs -/

namespace Sys2Proof.Machine

open Sys2Proof.Safety

/-! ### A step while a command runs and the host only waits in calls -/

/-- A synchronous call waits, and is no "no move" to use up. -/
theorem hostQuiet_of_onlyCalls {s : State} (h : onlyCalls s.inbox = true) :
    hostQuiet s = true ∧ dropPass s = s := by
  unfold hostQuiet dropPass
  cases hin : s.inbox with
  | nil => exact ⟨rfl, rfl⟩
  | cons m rest =>
    rw [hin] at h
    cases m with
    | call r => exact ⟨rfl, rfl⟩
    | issue | reset | read | pass => cases h

/-- R187: while a command runs, a host that only waits in calls leaves the step to the sequencer. -/
theorem step_of_onlyCalls {s : State} (h : onlyCalls s.inbox = true) (hr : s.seq.running = true) :
    step s = .next (perform s) := by
  obtain ⟨hh, hd⟩ := hostQuiet_of_onlyCalls h
  rw [step_of_hostQuiet hh hr, hd]

/-- The first step of a run. -/
theorem run_succ {s t : State} (n : Nat) (h : step s = .next t) :
    Sys2Proof.core.run (n + 1) s = Sys2Proof.core.run n t := by
  have hc : Sys2Proof.core.step s = .next t := h
  simp only [Host.Core.run, hc]

theorem keepsProgress_trans {s t u : State} (h : KeepsProgress s t) (h' : KeepsProgress t u) : KeepsProgress s u := by
  obtain ⟨hcursor, hrem, hbptr⟩ := h
  obtain ⟨hcursor', hrem', hbptr'⟩ := h'
  exact ⟨hcursor'.trans hcursor, hrem'.trans hrem, hbptr'.trans hbptr⟩

theorem closeCount_append (xs ys : List Event) : closeCount (xs ++ ys) = closeCount xs + closeCount ys :=
  List.countP_append

/-- R14: below 2^32 ms the difference of two readings is the time between them. -/
theorem elapsed_toNat {t0 t : Nat} (h : t0 ≤ t) (h' : t < t0 + 2 ^ 32) :
    (elapsed (BitVec.ofNat 32 t) (BitVec.ofNat 32 t0)).toNat = t - t0 := by
  simp only [elapsed, BitVec.toNat_sub, BitVec.toNat_ofNat]
  omega

/-- R13: the statuses of the raw answers 1 to 4 are the failures. -/
theorem ofRaw_of_failing {a : Nat} (h : 1 ≤ a ∧ a ≤ 4) :
    ∃ status, TxStatus.ofRaw a = some status ∧ status ≠ .ok := by
  obtain ⟨status, hs⟩ := Option.isSome_iff_exists.mp ((ofRaw_isSome_iff a).mpr (by omega))
  refine ⟨status, hs, ?_⟩
  rintro rfl
  have hcode : 0 = a := ofRaw_code hs
  omega

/-! ### The rounds of a poll: W_PSLEEP to W_PCHK -/

/-- The steps left of the round, this one counted; 0 outside the loop. -/
def roundSteps : Seq → Nat
  | .wPsleep => 6
  | .pBegin => 5
  | .pAhi => 4
  | .pAlo => 3
  | .pEnd => 2
  | .wPchk => 1
  | _ => 0

/-- The sleeps left of the round. -/
def roundSleeps : Seq → Nat
  | .wPsleep => 1
  | _ => 0

/-- The probes left of the round. -/
def roundProbes : Seq → Nat
  | .wPsleep | .pBegin | .pAhi | .pAlo | .pEnd => 1
  | _ => 0

/-- A poll since t0 with m rounds of its 21 after the one it is in: every probe to come fails, each sleep behind
took its millisecond, and all steps to come end before 2^32 ms have gone by. -/
structure FailingPoll (t0 m : Nat) (s : State) : Prop where
  looping : 0 < roundSteps s.seq
  calls : onlyCalls s.inbox = true
  mark : s.tmark = BitVec.ofNat 32 t0
  answers : m + roundProbes s.seq ≤ s.answers.length
  failing : ∀ a ∈ s.answers, 1 ≤ a ∧ a ≤ 4
  delays : 6 * m + roundSteps s.seq ≤ s.delays.length
  slept : t0 + 21 ≤ s.time + m + roundSleeps s.seq
  bound : s.time + (s.delays.take (6 * m + roundSteps s.seq)).sum + m + roundSleeps s.seq < t0 + 2 ^ 32

/-- What a step of the loop that sleeps k ms and makes c closes does to the clock, the inputs and HIST. -/
structure PollStep (k c : Nat) (s t : State) : Prop where
  inbox : t.inbox = s.inbox
  mark : t.tmark = s.tmark
  answers : t.answers = s.answers.drop c
  delays : t.delays = s.delays.tail
  time : t.time = s.time + k + nextDelay s
  closes : closeCount t.hist = closeCount s.hist + c

theorem pollStep_primitive (k : Nat) {e : Event} (he : closeCount [e] = 0) (s : State) :
    PollStep k 0 s (advance k (record e s)) where
  inbox := by simp
  mark := by simp
  answers := by simp
  delays := (advance_delays k (record e s)).1
  time := advance_time_eq k (record e s)
  closes := by simp [closeCount_append, he]

theorem pollStep_close (status : TxStatus) (s : State) :
    PollStep 0 1 s (advance 0 (record (.endTx status) (dropAnswer s))) where
  inbox := by simp
  mark := by simp
  answers := by simp
  delays := by simp [advance_delays]
  time := by simp [advance_time_eq, nextDelay]
  closes := by
    rw [advance_hist, record_hist, dropAnswer_hist, closeCount_append]
    rfl

/-- STATE is no part of it. -/
theorem PollStep.withSeq {k c : Nat} {s t : State} (h : PollStep k c s t) (q : Seq) :
    PollStep k c s { t with seq := q } :=
  ⟨h.inbox, h.mark, h.answers, h.delays, h.time, h.closes⟩

/-- The poll goes on, with one step less to come. -/
def PollGoesOn (t0 m : Nat) (s t : State) : Prop :=
  ∃ m', FailingPoll t0 m' t ∧ 6 * m' + roundSteps t.seq + 1 = 6 * m + roundSteps s.seq
    ∧ closeCount t.hist + m' + roundProbes t.seq = closeCount s.hist + m + roundProbes s.seq

section Poll

variable {t0 m k c : Nat} {s t : State}

/-- A step of the loop keeps the poll's bounds. -/
theorem FailingPoll.goesOn (hp : FailingPoll t0 m s) (ht : PollStep k c s t) (m' : Nat)
    (hloop : 0 < roundSteps t.seq) (hsteps : 6 * m' + roundSteps t.seq + 1 = 6 * m + roundSteps s.seq)
    (hprobes : m' + roundProbes t.seq + c = m + roundProbes s.seq)
    (hsleeps : m' + roundSleeps t.seq + k = m + roundSleeps s.seq) : PollGoesOn t0 m s t := by
  have htime := ht.time
  have hcloses := ht.closes
  have hslept := hp.slept
  have hanswers := hp.answers
  have hdelays := hp.delays
  have hbound := hp.bound
  obtain ⟨d, rest, hd⟩ := List.exists_cons_of_length_pos (l := s.delays) (by omega)
  have hrest : t.delays = rest := by rw [ht.delays, hd, List.tail_cons]
  have hnext : nextDelay s = d := by simp only [nextDelay, hd]
  rw [hd, ← hsteps, List.take_succ_cons, List.sum_cons] at hbound
  rw [hd, List.length_cons] at hdelays
  refine ⟨m', ⟨hloop, ht.inbox ▸ hp.calls, ht.mark.trans hp.mark, ?_, ?_, ?_, ?_, ?_⟩, hsteps, by omega⟩
  · rw [ht.answers, List.length_drop]
    omega
  · exact fun a ha => hp.failing a (List.mem_of_mem_drop (ht.answers ▸ ha))
  · rw [hrest]
    omega
  · omega
  · rw [hrest]
    omega

/-- A row of the loop before W_PCHK. -/
theorem FailingPoll.row {q q' : Seq} {u : State} (hp : FailingPoll t0 m s) (hq : s.seq = q) (hu : PollStep k c s u)
    (hrow : 0 < roundSteps q' ∧ roundSteps q' + 1 = roundSteps q ∧ roundProbes q' + c = roundProbes q
      ∧ roundSleeps q' + k = roundSleeps q) : PollGoesOn t0 m s { u with seq := q' } := by
  subst hq
  obtain ⟨hloop, hsteps, hprobes, hsleeps⟩ := hrow
  refine hp.goesOn (hu.withSeq q') m hloop ?_ ?_ ?_
  all_goals
    dsimp only
    omega

/-- R105: where W_PCHK of a failing poll does not time out, a round is left: after 21 sleeps it does. -/
theorem FailingPoll.not_timedOut (hp : FailingPoll t0 m s) (hq : s.seq = .wPchk)
    (ht : ¬ timedOut Config.POLL_TIMEOUT (clockReading s) s = true) : 0 < m := by
  have hslept := hp.slept
  have hbound := hp.bound
  simp only [hq, roundSleeps] at hslept hbound
  by_contra hm
  have he := elapsed_toNat (t0 := t0) (t := s.time) (by omega) (by omega)
  simp only [timedOut, clockReading, hp.mark, he, decide_eq_true_eq, Config.POLL_TIMEOUT] at ht
  omega

/-- R105: P_END of a failing poll is "not ready yet". -/
theorem FailingPoll.stepPEnd_eq (hp : FailingPoll t0 m s) (hq : s.seq = .pEnd) :
    ∃ status, stepPEnd s = { advance 0 (record (.endTx status) (dropAnswer s)) with seq := .wPchk } := by
  have hanswers := hp.answers
  simp only [hq, roundProbes] at hanswers
  have hnext : nextAnswer s ∈ s.answers := by
    unfold nextAnswer
    cases ha : s.answers with
    | nil => simp [ha] at hanswers
    | cons a rest => exact List.mem_cons_self
  obtain ⟨status, hs, hne⟩ := ofRaw_of_failing (hp.failing _ hnext)
  exact ⟨status, (txEnd_of_status _ hs).trans (if_neg hne)⟩

/-- R105: a step of a failing poll ends the command with Timeout, or the poll goes on. -/
theorem FailingPoll.perform_cases (hp : FailingPoll t0 m s) :
    ((perform s).seq = .idle ∧ (perform s).result = .timeout ∧ closeCount (perform s).hist = closeCount s.hist)
      ∨ PollGoesOn t0 m s (perform s) := by
  cases hq : s.seq <;> simp only [perform, hq]
  case wPsleep => exact .inr (hp.row hq (pollStep_primitive _ rfl s) (by decide))
  case pBegin | pAhi | pAlo => exact .inr (hp.row hq (pollStep_primitive 0 rfl s) (by decide))
  case pEnd =>
    obtain ⟨status, hs⟩ := hp.stepPEnd_eq hq
    exact .inr (hs ▸ hp.row hq (pollStep_close status s) (by decide))
  case wPchk =>
    have hread : PollStep 0 0 s (clkMillis s) := pollStep_primitive 0 rfl s
    unfold stepWPchk
    split
    next =>
      refine .inl ⟨rfl, rfl, ?_⟩
      rw [finish_hist, closeCount_append, hread.closes]
      rfl
    next h =>
      obtain ⟨n, rfl⟩ := Nat.exists_eq_add_one.mpr (hp.not_timedOut hq h)
      refine .inr (hp.goesOn (hread.withSeq .wPsleep) n (Nat.succ_pos 5) ?_ (by rw [hq]; rfl) (by rw [hq]; rfl))
      simp only [hq, roundSteps]
      omega
  all_goals exact absurd hp.looping (by simp [hq, roundSteps])

/-- Only the poll's rows are in the loop. -/
theorem inPoll_of_roundSteps {q : Seq} (h : 0 < roundSteps q) : inPoll q = true := by
  cases q with
  | wPsleep | pBegin | pAhi | pAlo | pEnd | wPchk => rfl
  | _ => cases h

/-- A step of a poll moves nothing (R105). -/
theorem keepsProgress_of_inPoll (h : inPoll s.seq = true) : s.seq.running = true ∧ KeepsProgress s (perform s) := by
  have hr : s.seq.running = true := running_of_inWrite (by simp [inWrite, h])
  rcases (perform_effect hr).keepsRun_or_advances with hk | ⟨hq | hq, -⟩
  · exact ⟨hr, hk.2⟩
  all_goals
    rw [hq] at h
    cases h

end Poll

/-- R107: a failing poll runs to Timeout in the steps and the probes that are left. -/
theorem FailingPoll.run_timeout {t0 : Nat} (n : Nat) {m : Nat} {s : State} (hp : FailingPoll t0 m s)
    (hn : 6 * m + roundSteps s.seq = n) :
    ∃ k t, k ≤ n ∧ Sys2Proof.core.run k s = .next t ∧ t.seq = .idle ∧ t.result = .timeout
      ∧ KeepsProgress s t ∧ closeCount t.hist ≤ closeCount s.hist + m + roundProbes s.seq := by
  induction n generalizing m s with
  | zero =>
    have hloop := hp.looping
    omega
  | succ n ih =>
    obtain ⟨hr, hk⟩ := keepsProgress_of_inPoll (inPoll_of_roundSteps hp.looping)
    have hs := step_of_onlyCalls hp.calls hr
    rcases hp.perform_cases with ⟨hidle, hto, hc⟩ | ⟨m', hp', hsteps, hc⟩
    · exact ⟨1, perform s, by omega, run_succ 0 hs, hidle, hto, hk, by omega⟩
    · obtain ⟨k, t, hle, hrun, hidle, hto, hk', hc'⟩ := ih hp' (by omega)
      exact ⟨k + 1, t, by omega, (run_succ k hs).trans hrun, hidle, hto, keepsProgress_trans hk hk', by omega⟩

/-- R105: W_PMARK begins the poll, which has 21 rounds to come. -/
theorem failingPoll_of_wPmark {s : State} (hq : s.seq = .wPmark) (hcalls : onlyCalls s.inbox = true)
    (hanswers : 21 ≤ s.answers.length) (hfailing : ∀ a ∈ s.answers, 1 ≤ a ∧ a ≤ 4)
    (hdelays : 127 ≤ s.delays.length) (hbound : (s.delays.take 127).sum + 21 < 2 ^ 32) :
    FailingPoll s.time 20 (perform s) ∧ (perform s).seq = .wPsleep
      ∧ closeCount (perform s).hist = closeCount s.hist := by
  have hread : PollStep 0 0 s (clkMillis s) := pollStep_primitive 0 rfl s
  have hperform : perform s = { markTime s with seq := .wPsleep } := by simp only [perform, hq, stepWPmark]
  obtain ⟨d, rest, hd⟩ := List.exists_cons_of_length_pos (l := s.delays) (by omega)
  have htime : (clkMillis s).time = s.time + d := by simpa [nextDelay, hd] using hread.time
  have hrest : (clkMillis s).delays = rest := by rw [hread.delays, hd, List.tail_cons]
  rw [hd, List.take_succ_cons, List.sum_cons] at hbound
  rw [hd, List.length_cons] at hdelays
  rw [hperform]
  refine ⟨?_, rfl, hread.closes⟩
  have hanswers' : (clkMillis s).answers = s.answers := hread.answers
  exact
    { looping := Nat.succ_pos 5
      calls := hread.inbox ▸ hcalls
      mark := rfl
      answers := hanswers' ▸ hanswers
      failing := hanswers' ▸ hfailing
      delays := by
        change 126 ≤ (clkMillis s).delays.length
        rw [hrest]
        omega
      slept := by
        change s.time + 21 ≤ (clkMillis s).time + 20 + 1
        omega
      bound := by
        change (clkMillis s).time + ((clkMillis s).delays.take 126).sum + 20 + 1 < s.time + 2 ^ 32
        rw [hrest]
        omega }

/-- Settles O60: W_PMARK, and then the run of the failing poll it begins. -/
theorem failingPollTimesOut : Obligations.FailingPollTimesOut := by
  unfold Obligations.FailingPollTimesOut
  intro s hq hcalls hanswers hfailing hdelays hbound
  obtain ⟨hp, hseq, hc⟩ := failingPoll_of_wPmark hq hcalls hanswers hfailing hdelays hbound
  obtain ⟨k, t, hle, hrun, hidle, hto, hk', hc'⟩ := hp.run_timeout (6 * 20 + 6) (by rw [hseq]; rfl)
  obtain ⟨hr, hk⟩ := keepsProgress_of_inPoll (s := s) (by rw [hq]; rfl)
  have hs := step_of_onlyCalls hcalls hr
  rw [hseq, hc] at hc'
  exact ⟨k + 1, t, by omega, (run_succ k hs).trans hrun, hidle, hto, keepsProgress_trans hk hk', hc'⟩

end Sys2Proof.Machine

/-! ## The address-only sequence (spec/41_addr.md R121): the proof of AddressOnlySequence and the lemma it needs -/

namespace Sys2Proof.Machine

open Sys2Proof.Safety

/-- R121: the step of A_END with its close status finishes, whatever the status. -/
theorem step_of_aEnd {s : State} {status : TxStatus} (hh : hostQuiet s = true) (hq : s.seq = .aEnd)
    (hst : TxStatus.ofRaw (nextAnswer s) = some status) :
    step s = .next
      (finish (resultOf status) (advance 0 (record (.endTx status) (dropAnswer (dropPass s))))) := by
  rw [step_of_hostQuiet hh (by rw [hq]; rfl)]
  simp only [perform, dropPass_seq, hq, stepAEnd]
  rw [txEnd_of_status _ (by simpa using hst)]

/-- Settles O27: each row is the primitive of its state, and A_END finishes with its close status. -/
theorem addressOnlySequence : Obligations.AddressOnlySequence := by
  unfold Obligations.AddressOnlySequence
  intro s hh
  have hstep {q : Seq} (hq : s.seq = q) (hr : q.running = true) : step s = .next (perform (dropPass s)) :=
    step_of_hostQuiet hh (hq ▸ hr)
  refine ⟨fun hq => ⟨_, hstep hq rfl, ?_⟩, fun hq => ⟨_, hstep hq rfl, ?_⟩,
    fun hq => ⟨_, hstep hq rfl, ?_⟩, fun hq status hst => ⟨_, step_of_aEnd hh hq hst, ?_⟩⟩
  · simp [perform, hq, stepABegin, GoesOn, busOf]
  · simp [perform, hq, stepAAhi, GoesOn, offsetHigh]
  · simp [perform, hq, stepAAlo, GoesOn, offsetLow]
  · simp [Finished]

end Sys2Proof.Machine

/-! ## The read request (spec/42_read.md R133, R140): the proofs of its statements and the lemmas they need -/

namespace Sys2Proof.Machine

open Sys2Proof.Safety

/-! ### The row R_REQ -/

/-- RxRequest with a raw answer of the type (R12). -/
theorem rxRequest_of_count {s : State} (a n : Byte) (k : Byte → State → State) (h : nextAnswer s ≤ 255) :
    rxRequest a n s k = k (BitVec.ofNat 8 (nextAnswer s))
      (advance 0 (record (.req a n (BitVec.ofNat 8 (nextAnswer s))) (dropAnswer s))) :=
  if_pos h

/-- A count within its type is CHUNK exactly when its eight bits are. -/
theorem ofNat_eq_iff_of_count {m : Nat} {b : Byte} (h : m ≤ 255) : BitVec.ofNat 8 m = b ↔ m = b.toNat := by
  rw [← BitVec.toNat_inj, BitVec.toNat_ofNat, Nat.mod_eq_of_lt (by omega)]

/-- R133: the step of R_REQ with its count. -/
theorem step_of_rReq {s : State} (hh : hostQuiet s = true) (hq : s.seq = .rReq) (hm : nextAnswer s ≤ 255) :
    let u := advance 0 (record (.req (busOf s) s.chunk (BitVec.ofNat 8 (nextAnswer s))) (dropAnswer (dropPass s)))
    step s = .next
      (if nextAnswer s = s.chunk.toNat then { u with seq := .rMark } else finish .unexpectedDataLength u) := by
  rw [step_of_hostQuiet hh (by rw [hq]; rfl)]
  simp only [perform, dropPass_seq, hq, stepRReq]
  rw [rxRequest_of_count _ _ _ (by simpa using hm)]
  simp [ofNat_eq_iff_of_count hm, busOf]

/-- Settles O29: the step of R_REQ, whether the count is CHUNK or not. -/
theorem readRequestChecksTheCount : Obligations.ReadRequestChecksTheCount := by
  unfold Obligations.ReadRequestChecksTheCount
  intro s hh hq hm
  refine ⟨_, step_of_rReq hh hq hm, ?_⟩
  split
  next => simp [KeepsProgress, GoesOn, busOf]
  next => simp [KeepsProgress, Finished, busOf]

/-! ### The chunk that is asked for -/

/-- R132, R140 b, d: in R_REQ nothing of the chunk is stored yet, so CHUNK is 1 to READ_CAP bytes, and BPTR stands after whole
chunks of READ_CAP bytes. -/
theorem chunk_bounds_of_rReq {s : State} (hi : EngineInv s) (hq : s.seq = .rReq) :
    1 ≤ s.chunk.toNat ∧ s.chunk.toNat ≤ s.params.readCap ∧ s.bptr.toNat % s.params.readCap = 0 := by
  obtain ⟨-, -, -, -, -, -, hread, -⟩ := hi
  obtain ⟨-, hpos, hchunk, -, hwhole, hstart, -⟩ := hread (by rw [hq]; rfl)
  have hcidx : s.cidx.toNat = 0 := hstart (.inl hq)
  have hcap := (readCap_bounds s.params).1
  rw [hcidx, Nat.sub_zero] at hwhole
  exact ⟨by omega, by omega, hwhole⟩

theorem resultOf_ne_unexpectedDataLength (status : TxStatus) : resultOf status ≠ .unexpectedDataLength := by
  cases status <;> exact nofun

/-- R133: UnexpectedDataLength comes from a request only. -/
theorem FinishCause.of_unexpectedDataLength {q : Seq} {rem : BitVec 17}
    (h : FinishCause q rem .unexpectedDataLength) : q = .rReq := by
  cases h with
  | wrongCount hq => exact hq
  | chunkFailed _ status _ hr => exact absurd hr.symm (resultOf_ne_unexpectedDataLength status)
  | addressed _ status hr => exact absurd hr.symm (resultOf_ne_unexpectedDataLength status)
  | nothingLeft _ _ hr => cases hr
  | timedOut _ hr => cases hr

/-- Settles O52: the step finishes in R_REQ and leaves BPTR where the chunk starts. -/
theorem unexpectedLengthAtAMultipleOfReadCap : Obligations.UnexpectedLengthAtAMultipleOfReadCap := by
  unfold Obligations.UnexpectedLengthAtAMultipleOfReadCap
  intro s t hi hh hread h ht hlen
  obtain ⟨hcause, ⟨-, -, -, -, -, -, hparams, -⟩, -, -, hbptr⟩ :=
    (step_effect hh (running_of_inRead hread) h).finishCause ht
  have hq : s.seq = .rReq := (hlen ▸ hcause).of_unexpectedDataLength
  rw [hbptr, hparams]
  exact (chunk_bounds_of_rReq hi hq).2.2

/-! ### What a step adds to HIST -/

/-- HIST grows by some events, and a request among them is the one R_REQ makes, for CHUNK bytes (R133). -/
def AddsEvents (s t : State) : Prop :=
  ∃ events, t.hist = s.hist ++ events ∧ ∀ a n m, Event.req a n m ∈ events → s.seq = .rReq ∧ n = s.chunk

theorem addsEvents_of_hist {s t : State} (events : List Event) (h : t.hist = s.hist ++ events)
    (hn : ∀ a n m, Event.req a n m ∉ events) : AddsEvents s t :=
  ⟨events, h, fun a n m hm => absurd hm (hn a n m)⟩

theorem addsEvents_of_hist_eq {s t : State} (h : t.hist = s.hist) : AddsEvents s t :=
  addsEvents_of_hist [] (by simp [h]) (by simp)

/-- One event more, which is no request. -/
theorem AddsEvents.snoc {s u t : State} {e : Event} (h : AddsEvents s u) (ht : t.hist = u.hist ++ [e])
    (hn : ∀ a n m, Event.req a n m ≠ e) : AddsEvents s t := by
  obtain ⟨events, hu, hreq⟩ := h
  exact ⟨events ++ [e], by simp [ht, hu], fun a n m hm => hreq a n m (by simpa [hn] using hm)⟩

theorem AddsEvents.finish {s u : State} (r : ResultCode) (h : AddsEvents s u) : AddsEvents s (finish r u) :=
  h.snoc (finish_hist r u) nofun

theorem AddsEvents.nextWriteChunk {s u : State} (h : AddsEvents s u) : AddsEvents s (nextWriteChunk u) := by
  rcases nextWriteChunk_cases u with ⟨-, hn⟩ | ⟨-, hn⟩ <;> rw [hn]
  · exact h.finish _
  · exact h

theorem AddsEvents.nextReadChunk {s u : State} (h : AddsEvents s u) : AddsEvents s (nextReadChunk u) := by
  rcases nextReadChunk_cases u with ⟨-, hn⟩ | ⟨-, hn⟩ <;> rw [hn]
  · exact h.finish _
  · exact h

/-- The issue pseudocode records nothing but the Done of a command that finishes at once (R100, R120, R130). -/
theorem AddsEvents.startOf {s u : State} (i : Instr) (h : AddsEvents s u) : AddsEvents s (startOf i u) := by
  have hwrite (ty : ElemType) : AddsEvents s (startWrite ty u) := by
    simp only [startWrite]
    split
    exacts [.finish _ h, .nextWriteChunk h]
  have hread (ty : ElemType) : AddsEvents s (startRead ty u) := by
    simp only [startRead]
    split
    exacts [.finish _ h, .nextReadChunk h]
  have hseek (ty : ElemType) : AddsEvents s (startSeek ty u) := by
    simp only [startSeek]
    split
    exacts [.finish _ h, h]
  cases i
  case addr => exact h
  case writeB | writeU8 | writeI8 | writeU16 | writeI16 | writeU32 | writeI32 | writeF32 | writeF64 => exact hwrite _
  case readB | readU8 | readI8 | readU16 | readI16 | readU32 | readI32 | readF32 | readF64 => exact hread _
  all_goals exact hseek _

/-- A primitive that takes no answer records its event. -/
theorem addsEvents_primitive (k : Nat) {e : Event} (s : State) (hn : ∀ a n m, Event.req a n m ≠ e) :
    AddsEvents s (advance k (record e s)) :=
  addsEvents_of_hist [e] (by simp) (by simpa using hn)

/-- A primitive that takes an answer within its type does too. -/
theorem addsEvents_answered {e : Event} (s : State) (hn : ∀ a n m, Event.req a n m ≠ e) :
    AddsEvents s (advance 0 (record e (dropAnswer s))) :=
  addsEvents_of_hist [e] (by simp) (by simpa using hn)

/-- R133: R_REQ records its request, for CHUNK bytes. -/
theorem addsEvents_request {s : State} (a m : Byte) (hq : s.seq = .rReq) :
    AddsEvents s (advance 0 (record (.req a s.chunk m) (dropAnswer s))) :=
  ⟨[.req a s.chunk m], by simp, by simp +contextual [hq]⟩

/-- R26: what the primitive of STATE adds to HIST. -/
theorem perform_addsEvents (s : State) : AddsEvents s (perform s) := by
  have hoob : AddsEvents s (enterFault .bufOob s) := addsEvents_of_hist_eq (by simp)
  have hbad : AddsEvents s (enterFault .badAnswer (dropAnswer s)) := addsEvents_of_hist_eq (by simp)
  have hclock : AddsEvents s (clkMillis s) := addsEvents_primitive _ s nofun
  have hmark : AddsEvents s (markTime s) := hclock
  have hsleep (k : Millis) : AddsEvents s (clkSleep k s) := addsEvents_primitive _ s nofun
  have hwrite (b : Byte) : AddsEvents s (txWrite b s) := addsEvents_primitive _ s nofun
  cases hq : s.seq <;> simp only [perform, hq]
  case idle | fault => exact addsEvents_of_hist_eq (by simp)
  case wData =>
    unfold stepWData
    split
    exacts [hoob, hwrite _]
  case wEnd =>
    refine txEnd_elim (fun status => ?_) hbad
    have hclose := addsEvents_answered (e := .endTx status) s nofun
    split
    exacts [hclose, hclose.finish _]
  case wSettle => exact (hsleep _).nextWriteChunk
  case pEnd =>
    refine txEnd_elim (fun status => ?_) hbad
    have hclose := addsEvents_answered (e := .endTx status) s nofun
    split
    exacts [hclose.nextWriteChunk, hclose]
  case wPchk =>
    unfold stepWPchk
    split
    exacts [hclock.finish _, hclock]
  case rReq =>
    refine rxRequest_elim (fun m => ?_) hbad
    have hreq := addsEvents_request (busOf s) m hq
    split
    exacts [hreq, hreq.finish _]
  case rAvail => exact rxAvailable_elim (fun v => addsEvents_answered (e := .avail v) s nofun) hbad
  case rByte =>
    unfold stepRByte
    split
    · exact hoob
    · exact rxRead_elim (fun b => addsEvents_answered (e := .rd b) s nofun) hbad
  case rTmark =>
    unfold stepRTmark
    split
    exacts [hmark.nextReadChunk, hmark]
  case rTchk =>
    unfold stepRTchk
    split
    exacts [hclock.finish _, hclock]
  case aEnd => exact txEnd_elim (fun status => (addsEvents_answered (e := .endTx status) s nofun).finish _) hbad
  case wPmark | rMark => exact hmark
  case wPsleep => exact hsleep _
  case wBegin | pBegin | aBegin => exact addsEvents_primitive _ s nofun
  case wAhi | wAlo | pAhi | pAlo | aAhi | aAlo => exact hwrite _

/-- Every step but a reset adds events to HIST (R35), and no other request than that of R_REQ. -/
theorem step_addsEvents {s t : State} (h : step s = .next t) (hr : s.inbox.head? ≠ some .reset) : AddsEvents s t := by
  rcases step_cases h with ⟨hb, -⟩ | ⟨reg, n, -, rfl⟩ | ⟨word, reasons, -, rfl⟩ | ⟨i, r, -, -, -, rfl⟩ | ⟨-, rfl⟩
  · exact absurd hb hr
  · exact addsEvents_of_hist_eq (by simp [hostAnswered])
  · exact addsEvents_of_hist [.refused word] (by simp [refuse]) (by simp)
  · have haccept : AddsEvents s (accept (encode i) (useOf i) r s) := addsEvents_of_hist [_] rfl (by simp)
    simpa [AddsEvents] using haccept.startOf i
  · simpa [AddsEvents] using perform_addsEvents (dropPass s)

/-- R133: a request that a step records is made in R_REQ, for CHUNK bytes. -/
theorem step_request {s t : State} {a n m : Byte} (h : step s = .next t)
    (hm : Event.req a n m ∈ t.hist.drop s.hist.length) : s.seq = .rReq ∧ n = s.chunk := by
  by_cases hr : s.inbox.head? = some .reset
  · cases (step_of_reset hr).symm.trans h
    simp [hostReset, State.reset] at hm
  · obtain ⟨events, ht, hreq⟩ := step_addsEvents h hr
    exact hreq a n m (by simpa [ht] using hm)

/-- Settles O50: the request is made in R_REQ for CHUNK bytes, which are 1 to READ_CAP. -/
theorem requestsAreWithinReadCap : Obligations.RequestsAreWithinReadCap := by
  unfold Obligations.RequestsAreWithinReadCap
  intro s t hi h a n m hm
  obtain ⟨hq, rfl⟩ := step_request h hm
  obtain ⟨hpos, hcap, -⟩ := chunk_bounds_of_rReq hi hq
  exact ⟨hpos, hcap⟩

end Sys2Proof.Machine

/-! ## Answers outside their types (spec/60_exceptions.md R191): the proof of AnswerOutsideItsTypeFaults and the lemmas it needs -/

namespace Sys2Proof.Machine

open Sys2Proof.Safety

/-! ### The primitives that take an answer -/

section OutsideItsType

variable {s : State}

/-- R13, R191: a raw answer of 5 or more is no close status. -/
theorem ofRaw_eq_none {n : Nat} (h : 5 ≤ n) : TxStatus.ofRaw n = none :=
  Option.not_isSome_iff_eq_none.mp fun hs => absurd ((ofRaw_isSome_iff n).mp hs) (Nat.not_lt.mpr h)

theorem txEnd_of_badAnswer (k : TxStatus → State → State) (h : 5 ≤ nextAnswer s) :
    txEnd s k = enterFault .badAnswer (dropAnswer s) := by
  simp only [txEnd, ofRaw_eq_none h]

theorem rxRequest_of_badAnswer (a n : Byte) (k : Byte → State → State) (h : 256 ≤ nextAnswer s) :
    rxRequest a n s k = enterFault .badAnswer (dropAnswer s) :=
  if_neg (Nat.not_le.mpr h)

theorem rxAvailable_of_badAnswer (k : Bool → State → State) (h : 2 ≤ nextAnswer s) :
    rxAvailable s k = enterFault .badAnswer (dropAnswer s) :=
  if_neg (Nat.not_le.mpr h)

theorem rxRead_of_badAnswer (k : Byte → State → State) (h : 256 ≤ nextAnswer s) :
    rxRead s k = enterFault .badAnswer (dropAnswer s) :=
  if_neg (Nat.not_le.mpr h)

end OutsideItsType

/-! ### The states that take an answer -/

/-- Only a running command takes an answer of the transport. -/
theorem running_of_badAnswerCause {s : State} (h : FaultCause s .badAnswer) : s.seq.running = true := by
  obtain ⟨hq | hq | hq, -⟩ | ⟨hq, -⟩ | ⟨hq, -⟩ | ⟨hq, -⟩ := h <;> rw [hq] <;> rfl

/-- R191: the whole of a primitive whose answer is outside its type is fault(BAD_ANSWER); R_BYTE takes one only where its access is
within bounds (R51). -/
theorem perform_of_badAnswerCause {s : State} (h : FaultCause s .badAnswer)
    (hb : s.seq = .rByte → s.bptr.toNat < s.bufLen) : perform s = enterFault .badAnswer (dropAnswer s) := by
  obtain ⟨hq | hq | hq, hn⟩ | ⟨hq, hn⟩ | ⟨hq, hn⟩ | ⟨hq, hn⟩ := h <;> simp only [perform, hq]
  · exact txEnd_of_badAnswer _ hn
  · exact txEnd_of_badAnswer _ hn
  · exact txEnd_of_badAnswer _ hn
  · exact rxRequest_of_badAnswer _ _ _ hn
  · exact rxAvailable_of_badAnswer _ hn
  · rw [stepRByte, if_neg (Nat.not_le.mpr (hb hq)), rxRead_of_badAnswer _ hn]

/-- Taking the host's "no move" leaves STATE and the next answer. -/
@[simp] theorem badAnswerCause_dropPass (s : State) : FaultCause (dropPass s) .badAnswer ↔ FaultCause s .badAnswer := by
  simp [FaultCause]

/-- R191: the step that takes an answer outside its type enters FAULT in place of its primitive. -/
theorem step_of_badAnswerCause {s : State} (hh : hostQuiet s = true) (h : FaultCause s .badAnswer)
    (hb : s.seq = .rByte → s.bptr.toNat < s.bufLen) :
    step s = .next (enterFault .badAnswer (dropAnswer (dropPass s))) := by
  rw [step_of_hostQuiet hh (running_of_badAnswerCause h),
    perform_of_badAnswerCause ((badAnswerCause_dropPass s).mpr h) (by simpa using hb)]

/-- Settles O33: each of the four cases is a cause of FAULT, and entering it changes no field of STATUS. -/
theorem answerOutsideItsTypeFaults : Obligations.AnswerOutsideItsTypeFaults := by
  unfold Obligations.AnswerOutsideItsTypeFaults
  intro s hh h
  have hc : FaultCause s .badAnswer ∧ (s.seq = .rByte → s.bptr.toNat < s.bufLen) := by
    obtain ⟨hq, hn⟩ | ⟨hq, hn⟩ | ⟨hq, hn⟩ | ⟨hq, hb, hn⟩ := h
    · exact ⟨.inl ⟨hq, hn⟩, fun hr => by simp [hr] at hq⟩
    · exact ⟨.inr (.inl ⟨hq, hn⟩), fun hr => by simp [hr] at hq⟩
    · exact ⟨.inr (.inr (.inl ⟨hq, hn⟩)), fun hr => by simp [hr] at hq⟩
    · exact ⟨.inr (.inr (.inr ⟨hq, hn⟩)), fun _ => hb⟩
  exact ⟨_, step_of_badAnswerCause hh hc.1 hc.2, by simp [KeepsStatus]⟩

end Sys2Proof.Machine

/-! ## Refusals (spec/60_exceptions.md R186): the proof of RefusedIssueChangesNothing and the lemmas it needs -/

namespace Sys2Proof.Machine

open Sys2Proof.Safety

/-! ### The reasons of a refusal -/

/-- The condition of R186 that each reason names. -/
def RefuseCause (r : IssueReq) (s : State) : RefuseReason → Prop
  | .reservedEncoding => decode r.cmd = none
  | .busy => s.seq ≠ .idle ∧ s.seq.isFault = false
  | .faulted => s.seq.isFault = true
  | .noCursor => r.cur = none ∧ s.cursorLoaded = false
  | .noBuffer => ∃ i, decode r.cmd = some i ∧ useOf i = .needed ∧ r.buf = none

/-- The reasons that a step finds against an Issue that lands: those of its command, or of a reserved word (R78). -/
def issueReasons (r : IssueReq) (s : State) : List RefuseReason :=
  match decode r.cmd with
  | some i => refuseReasons true (useOf i) r s
  | none => refuseReasons false .unused r s

@[simp] theorem mem_reasonIf {p : Bool} {reason given : RefuseReason} :
    given ∈ reasonIf p reason ↔ p = true ∧ given = reason := by
  cases p <;> simp [reasonIf]

/-- R186: a command runs outside IDLE and FAULT. -/
theorem seq_running_iff (q : Seq) : q.running = true ↔ q ≠ .idle ∧ q.isFault = false := by
  simp [Seq.running]

/-- R186: the reasons found are exactly those whose condition holds. -/
theorem mem_issueReasons (r : IssueReq) (s : State) (reason : RefuseReason) :
    reason ∈ issueReasons r s ↔ RefuseCause r s reason := by
  unfold issueReasons
  cases hd : decode r.cmd <;> cases reason <;> simp [refuseReasons, RefuseCause, hd, seq_running_iff]

/-! ### The step that refuses -/

/-- R186: an Issue with a reason against it is refused, whether its word is a command's or reserved. -/
theorem step_of_refuseCause {s : State} {r : IssueReq} (hf : fetch s = some r) {reason : RefuseReason}
    (h : RefuseCause r s reason) : step s = .next (refuse r.cmd (issueReasons r s) s) := by
  have hne : issueReasons r s ≠ [] := List.ne_nil_of_mem ((mem_issueReasons r s reason).mpr h)
  rcases step_of_fetch hf with ⟨i, hd, hs⟩ | ⟨hd, hs⟩ <;> simp only [issueReasons, hd] at hne ⊢
  · rw [hs, exec_eq, command_refused hf hne, encode_of_decode hd]
  · exact hs

/-- R190 d: TIME going by changes TIME and the counters of its amounts only. -/
theorem advance_changes_time (k : Nat) (s : State) :
    advance k s = { s with
      time := (advance k s).time, delays := (advance k s).delays, ticks := (advance k s).ticks } := by
  unfold advance
  split <;> rfl

/-- R186: refuse records Refused(cmd), answers the host and lets TIME go by. -/
theorem refuse_changes (word : CmdWord) (reasons : List RefuseReason) (s : State) :
    refuse word reasons s = { s with
      hist := s.hist ++ [.refused word], reply := .refused reasons, inbox := s.inbox.tail,
      time := (refuse word reasons s).time, delays := (refuse word reasons s).delays,
      ticks := (refuse word reasons s).ticks } :=
  advance_changes_time 0 _

/-- Settles O10: each condition is the cause of a reason, the reasons answered are those with a cause, and refuse changes nothing
else. -/
theorem refusedIssueChangesNothing : Obligations.RefusedIssueChangesNothing := by
  unfold Obligations.RefusedIssueChangesNothing
  intro s r hf h
  have hcause : ∃ reason, RefuseCause r s reason := by
    obtain h | h | h | h | h := h
    exacts [⟨.reservedEncoding, h⟩, ⟨.busy, h⟩, ⟨.faulted, h⟩, ⟨.noCursor, h⟩, ⟨.noBuffer, h⟩]
  obtain ⟨reason, hr⟩ := hcause
  have hholds (given : RefuseReason) : given ∈ issueReasons r s → RefuseCause r s given :=
    (mem_issueReasons r s given).mp
  exact ⟨_, issueReasons r s, step_of_refuseCause hf hr, refuse_changes _ _ _,
    List.ne_nil_of_mem ((mem_issueReasons r s reason).mpr hr),
    hholds .reservedEncoding, hholds .busy, hholds .faulted, hholds .noCursor, hholds .noBuffer⟩

end Sys2Proof.Machine

/-! ## Words and commands (spec/30_encoding.md): the proofs of the statements about decode and encode -/

namespace Sys2Proof

/-- Settles O1: the row found for a command's match builds the command again from its BUS. -/
theorem encodeThenDecodeIsIdentity : Obligations.EncodeThenDecodeIsIdentity := by
  unfold Obligations.EncodeThenDecodeIsIdentity
  exact fun i _ => decode_encode i

/-- Settles O2: the word of the row found is {BUS, match}. -/
theorem decodeThenEncodeIsIdentity : Obligations.DecodeThenEncodeIsIdentity := by
  unfold Obligations.DecodeThenEncodeIsIdentity
  exact fun _ _ => encode_of_decode

/-- R70: OP, N and T lie in bits [7:0], so BUS makes no word legal or illegal. -/
theorem commandWord_append (bus low : Byte) : WellFormed.commandWord (bus ++ low) = WellFormed.commandWord (0#8 ++ low) := by
  have hfield (start len : Nat) (h : start + len ≤ 8) (b : Byte) :
      (b ++ low).extractLsb' start len = low.extractLsb' start len := BitVec.extractLsb'_append_eq_of_add_le h
  simp only [WellFormed.commandWord, WellFormed.opLegal, WellFormed.nullLegal, WellFormed.typeLegal,
    hfield 0 3 (by decide), hfield 3 1 (by decide), hfield 4 4 (by decide)]

/-- R71 to R73, R76: the 256 low bytes, with BUS 0: a row matches exactly the legal ones. -/
theorem row_isSome_iff_legal :
    ∀ low : Byte, (opcodeRows.find? fun row => row.low == low).isSome = WellFormed.commandWord (0#8 ++ low) := by
  decide

/-- R78: a word decodes exactly when it is legal: both depend on bits [7:0] only, and agree on each of the 256. -/
theorem decode_isSome (w : CmdWord) : (decode w).isSome = WellFormed.commandWord w := by
  have hw := commandWord_append (busField w) (lowByte w)
  rw [busField_append_lowByte, ← row_isSome_iff_legal] at hw
  rw [hw, decode]
  cases opcodeRows.find? fun row => row.low == lowByte w <;> rfl

/-- Settles O4: `decode_isSome` is the statement. -/
theorem decodesExactlyTheLegalWords : Obligations.DecodesExactlyTheLegalWords := by
  unfold Obligations.DecodesExactlyTheLegalWords
  exact decode_isSome

/-- Settles O5: the 17 words, each looked up in the table. -/
theorem testVectorWordsDecode : Obligations.TestVectorWordsDecode := by
  unfold Obligations.TestVectorWordsDecode
  decide

end Sys2Proof

/-! ## The primitive of STATE (spec/10_state.md R26): everything that a step of the sequencer can do -/

namespace Sys2Proof.Machine

open Sys2Proof.Safety

/-! ### What a primitive leaves -/

/-- The part of a state that is not the engine's: TIME, the inputs to come, and the model's counts of them. -/
structure Surroundings where
  time : Nat
  answers : List Nat
  delays : List Nat
  draws : Nat
  ticks : Nat
  inbox : List HostMove

/-- s with the events recorded, in other surroundings: every register is as in s. -/
def recorded (s : State) (events : List Event) (env : Surroundings) : State :=
  { s with
    hist := s.hist ++ events
    time := env.time, answers := env.answers, delays := env.delays, draws := env.draws, ticks := env.ticks,
    inbox := env.inbox }

/-- v is s but for the answer and the host move that a step uses up before its primitive. -/
def Prepared (s v : State) : Prop :=
  ∃ env, v = recorded s [] env ∧ env.time = s.time ∧ env.delays = s.delays ∧ env.ticks = s.ticks

/-- The events took place in one step from s on: its sleep and the amount drawn have gone by (R190), and the amount is used up. -/
def Elapsed (s : State) (events : List Event) (time : Nat) (delays : List Nat) (ticks : Nat) : Prop :=
  time = s.time + slept events + nextDelay s ∧ delays = s.delays.tail
    ∧ ticks = if s.delays = [] then s.ticks + 1 else s.ticks

/-- u is s but for the events recorded and the surroundings after them. -/
def Records (events : List Event) (s u : State) : Prop :=
  ∃ env, u = recorded s events env ∧ Elapsed s events env.time env.delays env.ticks

section Records

variable {s v : State}

theorem prepared_refl (s : State) : Prepared s s :=
  ⟨⟨s.time, s.answers, s.delays, s.draws, s.ticks, s.inbox⟩, by simp [recorded], rfl, rfl, rfl⟩

theorem prepared_dropPass (s : State) : Prepared s (dropPass s) := by
  obtain ⟨env, h, hrest⟩ := prepared_refl s
  unfold dropPass
  split
  next rest _ => exact ⟨{ env with inbox := rest }, congrArg (fun v : State => { v with inbox := rest }) h, hrest⟩
  next => exact ⟨env, h, hrest⟩

theorem Prepared.dropAnswer (h : Prepared s v) : Prepared s (dropAnswer v) := by
  obtain ⟨env, rfl, hrest⟩ := h
  unfold Machine.dropAnswer
  split
  · exact ⟨{ env with answers := _ }, rfl, hrest⟩
  · exact ⟨{ env with draws := _ }, rfl, hrest⟩

/-- TIME goes by after the events (R190 b, c, d). -/
theorem records_advance {env : Surroundings} {events : List Event} {k : Nat} (hk : slept events = k)
    (ht : env.time = s.time) (hd : env.delays = s.delays) (hn : env.ticks = s.ticks) :
    Records events s (advance k (recorded s events env)) := by
  let u := advance k (recorded s events env)
  refine ⟨⟨u.time, env.answers, u.delays, env.draws, u.ticks, env.inbox⟩, advance_changes_time k _, ?_, ?_, ?_⟩
  · simp [u, advance_time_eq, recorded, nextDelay, ht, hd, hn, hk]
  · simp [u, advance_delays, recorded, hd]
  · simp [u, advance_delays, recorded, hd, hn]

/-- A step that records no event. -/
theorem Prepared.advance (h : Prepared s v) : Records [] s (advance 0 v) := by
  obtain ⟨env, rfl, ht, hd, hn⟩ := h
  exact records_advance rfl ht hd hn

/-- A primitive that takes no answer. -/
theorem Prepared.primitive {k : Nat} (e : Event) (hk : slept [e] = k) (h : Prepared s v) :
    Records [e] s (Machine.advance k (record e v)) := by
  obtain ⟨env, rfl, ht, hd, hn⟩ := h
  have he : record e (recorded s [] env) = recorded s [e] env := by simp [record, recorded]
  exact he ▸ records_advance hk ht hd hn

/-- A primitive that takes an answer within its type. -/
theorem Prepared.answered (e : Event) (he : slept [e] = 0) (h : Prepared s v) :
    Records [e] s (Machine.advance 0 (record e (Machine.dropAnswer v))) :=
  h.dropAnswer.primitive e he

end Records

/-! ### What the step of each STATE does -/

/-- The rows of R102, R105, R121, R133 and R134 that record the event e and change STATE only. -/
inductive Row (s : State) : Seq → Event → Seq → Prop
  | wBegin : Row s .wBegin (.begin (busOf s)) .wAhi
  | wAhi : Row s .wAhi (.wr (offsetHigh s)) .wAlo
  | wAlo : Row s .wAlo (.wr (offsetLow s)) .wData
  | wPsleep : Row s .wPsleep (.sleep Config.POLL_INTERVAL) .pBegin
  | pBegin : Row s .pBegin (.begin (busOf s)) .pAhi
  | pAhi : Row s .pAhi (.wr (offsetHigh s)) .pAlo
  | pAlo : Row s .pAlo (.wr (offsetLow s)) .pEnd
  | pEnd (status : TxStatus) : Row s .pEnd (.endTx status) .wPchk
  | wPchk : Row s .wPchk (.ms (clockReading s)) .wPsleep
  | rReq (m : Byte) : Row s .rReq (.req (busOf s) s.chunk m) .rMark
  | rAvail (v : Bool) : Row s .rAvail (.avail v) (if v then .rByte else .rTchk)
  | rTchk : Row s .rTchk (.ms (clockReading s)) .rAvail
  | aBegin : Row s .aBegin (.begin (busOf s)) .aAhi
  | aAhi : Row s .aAhi (.wr (offsetHigh s)) .aAlo
  | aAlo : Row s .aAlo (.wr (offsetLow s)) .aEnd

/-- An event of a primitive (R12, R14), a reading of the clock being that of TIME (R190 a). -/
def IsPrimitive (s : State) : Event → Prop
  | .issue .. | .done _ | .refused _ => False
  | .ms t => t = clockReading s
  | _ => True

/-- What the primitive of STATE can do (R26): everything it leaves, case by case. -/
inductive Performs (s : State) : State → Prop
  /-- No command runs: only TIME goes by. -/
  | waits {t : State} (rest : s.seq.running = false) (hu : Records [] s t) : Performs s t
  /-- FAULT is entered (R51, R191). -/
  | faults {t : State} (f : EngineFault) (run : s.seq.running = true) (hu : Records [] { s with seq := .fault f } t) :
    Performs s t
  | goesOn {u : State} {e : Event} {p q : Seq} (start : s.seq = p) (row : Row s p e q) (hu : Records [e] s u) :
    Performs s { u with seq := q }
  /-- W_DATA (R102). -/
  | sendsByte {u : State} (row : s.seq = .wData) (hu : Records [.wr (Memory.read s.buf (writeIndex s))] s u) :
    Performs s { u with cidx := s.cidx + 1#8, seq := if s.cidx + 1#8 < s.chunk then .wData else .wEnd }
  /-- TMARK is set and the wait for the device or for a byte begins (R105, R134). -/
  | marksTime {u : State} {q : Seq}
      (row : s.seq = .wPmark ∧ q = .wPsleep ∨ (s.seq = .rMark ∨ s.seq = .rTmark ∧ s.cidx ≠ s.chunk) ∧ q = .rAvail)
      (hu : Records [.ms (clockReading s)] s u) : Performs s { u with tmark := clockReading s, seq := q }
  /-- W_END with OK (R103). -/
  | closesChunk {u : State} (row : s.seq = .wEnd) (hu : Records [.endTx .ok] s u) : Performs s (chunkWritten u)
  /-- R_BYTE (R134). -/
  | storesByte {u : State} (row : s.seq = .rByte) (bound : s.bptr.toNat < s.bufLen) (b : Byte)
      (hu : Records [.rd b] s u) : Performs s (byteReceived b u)
  /-- The next write chunk (R101). -/
  | startsWriteChunk {u : State} {e : Event} (row : s.seq = .wSettle ∨ s.seq = .pEnd) (left : s.rem ≠ 0#17)
      (prim : IsPrimitive s e) (hu : Records [e] s u) :
    Performs s { u with chunk := BitVec.ofNat 8 (min (bytesToBoundary s) s.rem.toNat), cidx := 0#8, seq := .wBegin }
  /-- The next read chunk (R132). -/
  | startsReadChunk {u : State} (row : s.seq = .rTmark) (full : s.cidx = s.chunk) (left : s.rem ≠ 0#17)
      (hu : Records [.ms (clockReading s)] s u) :
    Performs s { u with
      tmark := clockReading s, chunk := BitVec.ofNat 8 (min s.params.readCap s.rem.toNat), cidx := 0#8, seq := .rReq }
  /-- The command finishes; at the end of a read chunk TMARK is set before (R134). -/
  | finishes {u : State} {e : Event} {r : ResultCode} (cause : FinishCause s.seq s.rem r) (prim : IsPrimitive s e)
      (tm : Millis) (mark : s.seq ≠ .rTmark → tm = s.tmark) (hu : Records [e] s u) :
    Performs s (finish r { u with tmark := tm })

section Performs

variable {s u v : State}

theorem performs_finish {e : Event} {r : ResultCode} (cause : FinishCause s.seq s.rem r) (hu : Records [e] s u)
    (prim : IsPrimitive s e) : Performs s (finish r u) := by
  obtain ⟨env, rfl, htime⟩ := hu
  exact .finishes (u := recorded s [e] env) cause prim s.tmark (fun _ => rfl) ⟨env, rfl, htime⟩

theorem performs_nextWriteChunk {e : Event} (row : s.seq = .wSettle ∨ s.seq = .pEnd) (hu : Records [e] s u)
    (prim : IsPrimitive s e) : Performs s (nextWriteChunk u) := by
  rcases nextWriteChunk_cases u with ⟨h0, h⟩ | ⟨h0, h⟩ <;> rw [h] <;> obtain ⟨env, rfl, htime⟩ := hu
  · exact performs_finish (.nothingLeft (row.imp_right .inl) h0 rfl) ⟨env, rfl, htime⟩ prim
  · exact .startsWriteChunk (u := recorded s [e] env) row h0 prim ⟨env, rfl, htime⟩

theorem performs_nextReadChunk (row : s.seq = .rTmark) (full : s.cidx = s.chunk)
    (hu : Records [.ms (clockReading s)] s u) : Performs s (nextReadChunk { u with tmark := clockReading s }) := by
  rcases nextReadChunk_cases { u with tmark := clockReading s } with ⟨h0, h⟩ | ⟨h0, h⟩ <;> rw [h] <;>
    obtain ⟨env, rfl, htime⟩ := hu
  · exact .finishes (u := recorded s _ env) (e := .ms _) (.nothingLeft (.inr (.inr row)) h0 rfl) rfl _ (absurd row)
      ⟨env, rfl, htime⟩
  · exact .startsReadChunk (u := recorded s _ env) row full h0 ⟨env, rfl, htime⟩

theorem performs_enterFault (f : EngineFault) (run : s.seq.running = true) (hv : Prepared s v) :
    Performs s (enterFault f v) := by
  obtain ⟨env, rfl, htime⟩ := hv
  exact .faults f run (Prepared.advance ⟨env, rfl, htime⟩)

/-- R26: everything the primitive of STATE can do. -/
theorem perform_cases (hv : Prepared s v) : Performs s (perform v) := by
  obtain ⟨env, rfl, ht, -⟩ := id hv
  have htime : clockReading (recorded s [] env) = clockReading s := congrArg (BitVec.ofNat 32) ht
  have hclock : Records [.ms (clockReading s)] s (clkMillis (recorded s [] env)) := htime ▸ hv.primitive _ rfl
  have hmark : markTime (recorded s [] env) = { clkMillis (recorded s [] env) with tmark := clockReading s } := by
    rw [markTime, htime]
  have hrun {q : Seq} (hq : s.seq = q) (hr : q.running = true) : s.seq.running = true := hq ▸ hr
  have hbad (hr : s.seq.running = true) := performs_enterFault .badAnswer hr hv.dropAnswer
  have hoob (hr : s.seq.running = true) := performs_enterFault .bufOob hr hv
  have hseq : (recorded s [] env).seq = s.seq := rfl
  cases hq : s.seq <;> simp only [perform, hseq, hq]
  case idle | fault => exact .waits (by rw [hq]; rfl) hv.advance
  case wBegin => exact .goesOn hq .wBegin (hv.primitive _ rfl)
  case wAhi => exact .goesOn hq .wAhi (hv.primitive _ rfl)
  case wAlo => exact .goesOn hq .wAlo (hv.primitive _ rfl)
  case wPsleep => exact .goesOn hq .wPsleep (hv.primitive _ rfl)
  case pBegin => exact .goesOn hq .pBegin (hv.primitive _ rfl)
  case pAhi => exact .goesOn hq .pAhi (hv.primitive _ rfl)
  case pAlo => exact .goesOn hq .pAlo (hv.primitive _ rfl)
  case aBegin => exact .goesOn hq .aBegin (hv.primitive _ rfl)
  case aAhi => exact .goesOn hq .aAhi (hv.primitive _ rfl)
  case aAlo => exact .goesOn hq .aAlo (hv.primitive _ rfl)
  case wData =>
    unfold stepWData
    split
    · exact hoob (hrun hq rfl)
    · exact .sendsByte hq (hv.primitive _ rfl)
  case wEnd =>
    refine txEnd_elim (fun status => ?_) (hbad (hrun hq rfl))
    split
    next hok => exact .closesChunk hq (hok ▸ hv.answered _ rfl)
    next hok => exact performs_finish (.chunkFailed hq status hok rfl) (hv.answered _ rfl) trivial
  case wSettle => exact performs_nextWriteChunk (.inl hq) (hv.primitive _ rfl) trivial
  case wPmark =>
    simp only [stepWPmark, hmark]
    exact .marksTime (.inl ⟨hq, rfl⟩) hclock
  case pEnd =>
    refine txEnd_elim (fun status => ?_) (hbad (hrun hq rfl))
    split
    · exact performs_nextWriteChunk (.inr hq) (hv.answered _ rfl) trivial
    · exact .goesOn hq (.pEnd status) (hv.answered _ rfl)
  case wPchk =>
    unfold stepWPchk
    split
    · exact performs_finish (.timedOut (.inl hq) rfl) hclock rfl
    · exact .goesOn hq .wPchk hclock
  case rReq =>
    refine rxRequest_elim (fun m => ?_) (hbad (hrun hq rfl))
    split
    · exact .goesOn hq (.rReq m) (hv.answered _ rfl)
    · exact performs_finish (.wrongCount hq rfl) (hv.answered _ rfl) trivial
  case rMark =>
    simp only [stepRMark, hmark]
    exact .marksTime (.inr ⟨.inl hq, rfl⟩) hclock
  case rAvail => exact rxAvailable_elim (fun b => .goesOn hq (.rAvail b) (hv.answered _ rfl)) (hbad (hrun hq rfl))
  case rByte =>
    unfold stepRByte
    split
    · exact hoob (hrun hq rfl)
    next hb => exact rxRead_elim (fun b => .storesByte hq (Nat.lt_of_not_le hb) b (hv.answered _ rfl)) (hbad (hrun hq rfl))
  case rTmark =>
    simp only [stepRTmark, hmark]
    split
    next hfull => exact performs_nextReadChunk hq hfull hclock
    next hfull => exact .marksTime (.inr ⟨.inr ⟨hq, hfull⟩, rfl⟩) hclock
  case rTchk =>
    unfold stepRTchk
    split
    · exact performs_finish (.timedOut (.inr hq) rfl) hclock rfl
    · exact .goesOn hq .rTchk hclock
  case aEnd =>
    exact txEnd_elim (fun status => performs_finish (.addressed hq status rfl) (hv.answered _ rfl) trivial) (hbad (hrun hq rfl))

/-- R26: everything a step of the sequencer can do. -/
theorem perform_dropPass_cases (s : State) : Performs s (perform (dropPass s)) :=
  perform_cases (prepared_dropPass s)

end Performs
end Sys2Proof.Machine

/-! ## The sequencer keeps the invariant (spec/10_state.md R26 to R33, spec/40_write.md R108, spec/42_read.md R140) -/

namespace Sys2Proof.Machine

open Sys2Proof.Safety

/-! ### The invariant of each family of states (R26) -/

theorem running_of_inAddr {q : Seq} (h : inAddr q = true) : q.running = true := by
  cases q with
  | aBegin | aAhi | aAlo | aEnd => rfl
  | _ => cases h

section Families

variable {t : State}

theorem sequenceInv_of_rest (h : t.seq.running = false) : SequenceInv t := by
  have hw : inWrite t.seq = false := Bool.eq_false_iff.mpr fun hw => by simp [running_of_inWrite hw] at h
  have hr : inRead t.seq = false := Bool.eq_false_iff.mpr fun hr => by simp [running_of_inRead hr] at h
  have ha : inAddr t.seq = false := Bool.eq_false_iff.mpr fun ha => by simp [running_of_inAddr ha] at h
  obtain ⟨⟨hd, hp⟩, hs⟩ : (inDataChunk t.seq = false ∧ inPoll t.seq = false) ∧ t.seq ≠ .wSettle := by
    simpa [inWrite] using hw
  simp [SequenceInv, hw, hd, hp, hs, hr, ha]

theorem sequenceInv_of_dataChunk (h : inDataChunk t.seq = true) (hp : ProgressInv t) (hd : DataChunkInv t) :
    SequenceInv t := by
  have hq : inPoll t.seq = false ∧ t.seq ≠ .wSettle ∧ inRead t.seq = false ∧ inAddr t.seq = false := by
    cases hq : t.seq <;> simp [hq, inDataChunk] at h <;> simp [inPoll, inRead, inAddr]
  obtain ⟨hpoll, hs, hr, ha⟩ := hq
  exact ⟨fun _ => hp, fun _ => hd, by simp [hpoll, hs], by simp [hr], by simp [ha]⟩

theorem sequenceInv_of_wait (h : inPoll t.seq = true ∨ t.seq = .wSettle) (hp : ProgressInv t) (hw : WaitInv t) :
    SequenceInv t := by
  have hq : inDataChunk t.seq = false ∧ inRead t.seq = false ∧ inAddr t.seq = false := by
    cases hq : t.seq <;> simp [hq, inPoll] at h <;> simp [inDataChunk, inRead, inAddr]
  obtain ⟨hd, hr, ha⟩ := hq
  exact ⟨fun _ => hp, by simp [hd], fun _ => hw, by simp [hr], by simp [ha]⟩

theorem sequenceInv_of_read (h : inRead t.seq = true) (hp : ProgressInv t) (hc : ReadChunkInv t) : SequenceInv t := by
  have hq : inWrite t.seq = false ∧ inDataChunk t.seq = false ∧ inPoll t.seq = false ∧ t.seq ≠ .wSettle
      ∧ inAddr t.seq = false := by
    cases hq : t.seq <;> simp [hq, inRead] at h <;> simp [inWrite, inDataChunk, inPoll, inAddr]
  obtain ⟨hw, hd, hpoll, hs, ha⟩ := hq
  exact ⟨by simp [hw], by simp [hd], by simp [hpoll, hs], fun _ => ⟨hp, hc⟩, by simp [ha]⟩

theorem sequenceInv_of_addr (h : inAddr t.seq = true) (hb : t.bptr = 0#17) : SequenceInv t := by
  have hq : inWrite t.seq = false ∧ inDataChunk t.seq = false ∧ inPoll t.seq = false ∧ t.seq ≠ .wSettle
      ∧ inRead t.seq = false := by
    cases hq : t.seq <;> simp [hq, inAddr] at h <;> simp [inWrite, inDataChunk, inPoll, inRead]
  obtain ⟨hw, hd, hpoll, hs, hr⟩ := hq
  exact ⟨by simp [hw], by simp [hd], by simp [hpoll, hs], by simp [hr], fun _ => hb⟩

end Families

/-! ### The sequencer keeps the invariant -/

section Performs

variable {s t : State}

/-- R53: only R_BYTE writes a byte, and within BUFLEN. -/
theorem Performs.bufferInv (h : Performs s t) (hi : BufferInv s) : BufferInv t := by
  cases h with
  | storesByte row bound b hu =>
    obtain ⟨hwf, hcells, hlen⟩ := hi
    obtain ⟨env, rfl, -⟩ := hu
    refine ⟨Memory.write_wf _ _ _ hwf, fun cell hc => ?_, hlen⟩
    rcases Memory.mem_write hc with h | h
    · exact h ▸ bound
    · exact hcells cell h
  | waits _ hu | faults _ _ hu | goesOn _ _ hu | sendsByte _ hu | marksTime _ hu | closesChunk _ hu
  | startsWriteChunk _ _ _ hu | startsReadChunk _ _ _ hu | finishes _ _ _ _ hu =>
    obtain ⟨env, rfl, -⟩ := hu
    exact hi

/-- The operands stay (R185). -/
theorem Performs.keepsOperands (h : Performs s t) : KeepsOperands s t := by
  cases h with
  | waits _ hu | faults _ _ hu | goesOn _ _ hu | sendsByte _ hu | marksTime _ hu | closesChunk _ hu | storesByte _ _ _ hu
  | startsWriteChunk _ _ _ hu | startsReadChunk _ _ _ hu | finishes _ _ _ _ hu =>
    obtain ⟨env, rfl, -⟩ := hu
    exact ⟨rfl, rfl, rfl, rfl, rfl, rfl, rfl, rfl⟩


/-- A row leads from a running state to one of the same family, by an event of a primitive. -/
theorem Row.family {p q : Seq} {e : Event} (h : Row s p e q) :
    IsPrimitive s e ∧ p.running = true ∧ q.running = true
      ∧ inWrite q = inWrite p ∧ inRead q = inRead p ∧ inAddr q = inAddr p := by
  cases h with
  | rAvail v => cases v <;> exact ⟨trivial, rfl, rfl, rfl, rfl, rfl⟩
  | wPchk | rTchk => exact ⟨rfl, rfl, rfl, rfl, rfl, rfl⟩
  | _ => exact ⟨trivial, rfl, rfl, rfl, rfl, rfl⟩

/-- Only a running command finishes. -/
theorem FinishCause.running {q : Seq} {rem : BitVec 17} {r : ResultCode} (h : FinishCause q rem r) :
    q.running = true := by
  cases h with
  | nothingLeft hq => obtain rfl | rfl | rfl := hq <;> rfl
  | timedOut hq => obtain rfl | rfl := hq <;> rfl
  | chunkFailed hq | addressed hq | wrongCount hq => exact hq ▸ rfl

/-- R104: SETTLE chooses the completion wait. -/
theorem chunkWritten_seq_cases (u : State) :
    (chunkWritten u).seq = .wPmark ∧ u.settle = 0#32 ∨ (chunkWritten u).seq = .wSettle ∧ u.settle ≠ 0#32 := by
  by_cases h : u.settle = 0#32
  · exact .inl ⟨if_pos h, h⟩
  · exact .inr ⟨if_neg h, h⟩

/-- A step with these events leaves STATUS and does not end the command, or it finishes a running command after them (R11). -/
inductive StatusEffect (events : List Event) (s t : State) : Prop
  | goesOn (keeps : GoesOn t.seq events s t) (idle : t.seq = .idle ↔ s.seq = .idle)
  | finishes (run : s.seq.running = true) (r : ResultCode) (finished : Finished r events s t)

/-- R11, R17: a step of the sequencer records primitives, and Done after them where it finishes. -/
theorem Performs.status (h : Performs s t) : ∃ events, (∀ e ∈ events, IsPrimitive s e) ∧ StatusEffect events s t := by
  have hgo {e : Event} {u : State} (hu : Records [e] s u) (he : IsPrimitive s e) (hs : s.seq.running = true)
      (ht : t.seq.running = true)
      (hk : t.busy = u.busy ∧ t.result = u.result ∧ t.resultValid = u.resultValid ∧ t.hist = u.hist) :
      ∃ events, (∀ e ∈ events, IsPrimitive s e) ∧ StatusEffect events s t := by
    obtain ⟨env, rfl, -⟩ := hu
    exact ⟨[e], by simpa using he,
      .goesOn ⟨rfl, hk⟩ (by simp [(seq_running_iff _).mp hs, (seq_running_iff _).mp ht])⟩
  cases h with
  | waits rest hu =>
    obtain ⟨env, rfl, -⟩ := hu
    exact ⟨[], by simp, .goesOn ⟨rfl, rfl, rfl, rfl, rfl⟩ Iff.rfl⟩
  | faults f run hu =>
    obtain ⟨env, rfl, -⟩ := hu
    exact ⟨[], by simp, .goesOn ⟨rfl, rfl, rfl, rfl, rfl⟩ (by simp [recorded, (seq_running_iff _).mp run])⟩
  | finishes cause prim tm mark hu =>
    obtain ⟨env, rfl, -⟩ := hu
    exact ⟨[_], by simpa using prim, .finishes cause.running _ ⟨rfl, rfl, rfl, rfl, rfl⟩⟩
  | goesOn start row hu =>
    obtain ⟨he, hp, hq, -⟩ := row.family
    exact hgo hu he (start ▸ hp) hq ⟨rfl, rfl, rfl, rfl⟩
  | sendsByte row hu =>
    exact hgo hu trivial (row ▸ rfl) (by dsimp only; split <;> rfl) ⟨rfl, rfl, rfl, rfl⟩
  | marksTime row hu =>
    obtain ⟨hq, rfl⟩ | ⟨hq | ⟨hq, -⟩, rfl⟩ := row <;> exact hgo hu rfl (hq ▸ rfl) rfl ⟨rfl, rfl, rfl, rfl⟩
  | closesChunk row hu =>
    refine hgo hu trivial (row ▸ rfl) ?_ ⟨rfl, rfl, rfl, rfl⟩
    obtain ⟨h, -⟩ | ⟨h, -⟩ := chunkWritten_seq_cases _ <;> rw [h] <;> rfl
  | storesByte row _ b hu => exact hgo hu trivial (row ▸ rfl) rfl ⟨rfl, rfl, rfl, rfl⟩
  | startsWriteChunk row _ prim hu =>
    obtain hq | hq := row <;> exact hgo hu prim (hq ▸ rfl) rfl ⟨rfl, rfl, rfl, rfl⟩
  | startsReadChunk row _ _ hu => exact hgo hu rfl (row ▸ rfl) rfl ⟨rfl, rfl, rfl, rfl⟩

theorem commandInv_of_rest (h : t.seq.running = false) : CommandInv t :=
  ⟨fun hr => absurd (h.symm.trans hr) nofun, fun hw => absurd (h.symm.trans (running_of_inWrite hw)) nofun,
    fun hr => absurd (h.symm.trans (running_of_inRead hr)) nofun,
    fun ha => absurd (h.symm.trans (running_of_inAddr ha)) nofun⟩

/-- R26: the sequencer stays in the family of the command until it is at rest. -/
theorem Performs.family (h : Performs s t) :
    t.seq.running = false
      ∨ s.seq.running = true ∧ inWrite t.seq = inWrite s.seq ∧ inRead t.seq = inRead s.seq
        ∧ inAddr t.seq = inAddr s.seq := by
  cases h with
  | waits rest hu =>
    obtain ⟨env, rfl, -⟩ := hu
    exact .inl rest
  | faults f run hu =>
    obtain ⟨env, rfl, -⟩ := hu
    exact .inl rfl
  | finishes => exact .inl rfl
  | goesOn start row hu =>
    obtain ⟨-, hp, -, hfamily⟩ := row.family
    exact .inr (start ▸ ⟨hp, hfamily⟩)
  | sendsByte row hu =>
    rw [row]
    dsimp only
    split <;> exact .inr ⟨rfl, rfl, rfl, rfl⟩
  | marksTime row hu =>
    obtain ⟨hq, rfl⟩ | ⟨hq | ⟨hq, -⟩, rfl⟩ := row <;> exact .inr (hq ▸ ⟨rfl, rfl, rfl, rfl⟩)
  | closesChunk row hu =>
    rw [row]
    obtain ⟨h, -⟩ | ⟨h, -⟩ := chunkWritten_seq_cases _ <;> exact .inr (h ▸ ⟨rfl, rfl, rfl, rfl⟩)
  | storesByte row _ b hu => exact .inr (row ▸ ⟨rfl, rfl, rfl, rfl⟩)
  | startsWriteChunk row _ prim hu => obtain hq | hq := row <;> exact .inr (hq ▸ ⟨rfl, rfl, rfl, rfl⟩)
  | startsReadChunk row _ _ hu => exact .inr (row ▸ ⟨rfl, rfl, rfl, rfl⟩)

theorem Performs.commandInv (h : Performs s t) (hi : CommandInv s) : CommandInv t := by
  obtain ⟨-, -, hcmd, -⟩ := h.keepsOperands
  obtain hr | ⟨hr, hw, hrd, ha⟩ := h.family
  · exact commandInv_of_rest hr
  · obtain ⟨hword, hfamily⟩ := hi
    rw [CommandInv, hcmd, hw, hrd, ha]
    exact ⟨fun _ => hword hr, hfamily⟩

theorem Performs.statusInv (h : Performs s t) (hi : StatusInv s) : StatusInv t := by
  obtain ⟨hbusy, hloaded⟩ := hi
  obtain ⟨-, -, -, hcl, -⟩ := h.keepsOperands
  obtain ⟨events, -, ⟨⟨-, hb, -⟩, hidle⟩ | ⟨-, r, hseq, hb, -⟩⟩ := h.status
  · exact ⟨by rw [hb, hbusy, ne_eq, ne_eq, hidle], by rwa [hb, hcl]⟩
  · simp [StatusInv, hseq, hb]


theorem Row.sequenceInv {u : State} {p q : Seq} {e : Event} (hq : s.seq = p) (h : Row s p e q) (hu : Records [e] s u)
    (hi : SequenceInv s) : SequenceInv { u with seq := q } := by
  obtain ⟨hprog, hdata, hwait, hread, haddr⟩ := hi
  obtain ⟨env, rfl, -⟩ := hu
  rw [hq] at hprog hdata hwait hread haddr
  cases h
  case wBegin | wAhi =>
    obtain ⟨hrem, hchunk, hstart, -⟩ := hdata rfl
    exact sequenceInv_of_dataChunk rfl (hprog rfl) ⟨hrem, hchunk, fun _ => hstart (by simp [hq]), nofun, nofun⟩
  case wAlo =>
    obtain ⟨hrem, hchunk, hstart, -⟩ := hdata rfl
    have hb := (bytesToBoundary_bounds s).1
    have h0 := hstart (by simp [hq])
    have hlt : s.cidx.toNat < s.chunk.toNat := by omega
    exact sequenceInv_of_dataChunk rfl (hprog rfl) ⟨hrem, hchunk, nofun, fun _ => hlt, nofun⟩
  case wPsleep | pBegin | pAhi | pAlo | pEnd | wPchk =>
    obtain ⟨hpage, -, hsettle⟩ := hwait (.inl rfl)
    exact sequenceInv_of_wait (.inl rfl) (hprog rfl) ⟨hpage, nofun, fun _ => hsettle (by rw [hq]; rfl)⟩
  case rReq =>
    obtain ⟨hp, hpos, hchunk, hle, hwhole, hstart, -⟩ := hread rfl
    exact sequenceInv_of_read rfl hp ⟨hpos, hchunk, hle, hwhole, fun _ => hstart (.inl hq), nofun, nofun⟩
  case rAvail v =>
    obtain ⟨hp, hpos, hchunk, hle, hwhole, -, hin, -⟩ := hread rfl
    cases v <;> exact sequenceInv_of_read rfl hp ⟨hpos, hchunk, hle, hwhole, nofun, fun _ => hin (.inl hq), nofun⟩
  case rTchk =>
    obtain ⟨hp, hpos, hchunk, hle, hwhole, -, hin, -⟩ := hread rfl
    exact sequenceInv_of_read rfl hp ⟨hpos, hchunk, hle, hwhole, nofun, fun _ => hin (.inr (.inr hq)), nofun⟩
  case aBegin | aAhi | aAlo => exact sequenceInv_of_addr rfl (haddr rfl)

/-- R103, R108 c: where bytes are left after a chunk, it ended at a page boundary. -/
theorem sequenceInv_chunkWritten (hp : ProgressInv s) (hd : DataChunkInv s) : SequenceInv (chunkWritten s) := by
  obtain ⟨hsum, hlen, hcap⟩ := hp
  obtain ⟨hrem, hchunk, -⟩ := hd
  obtain ⟨hbptr, hcursor, hrem'⟩ := chunkWritten_progress (s := s) (by omega) (by omega)
  simp only [bytesToBoundary, Config.PAGE, Config.CAPACITY] at *
  have hp' : ProgressInv (chunkWritten s) := by
    refine ⟨?_, hlen, ?_⟩
    · change _ = s.bytelen.toNat
      omega
    · simp only [Config.CAPACITY]
      omega
  have hpage : (chunkWritten s).rem.toNat = 0 ∨ (chunkWritten s).cursor.toNat % Config.PAGE = 0 := by
    simp only [Config.PAGE]
    omega
  have hsettle : (chunkWritten s).settle = s.settle := rfl
  obtain ⟨hq, hs⟩ | ⟨hq, hs⟩ := chunkWritten_seq_cases s
  · exact sequenceInv_of_wait (.inl (by rw [hq]; rfl)) hp' ⟨hpage, by simp [hq], fun _ => hs⟩
  · exact sequenceInv_of_wait (.inr hq) hp' ⟨hpage, fun _ => hs, by simp [hq, inPoll]⟩

/-- R134: where a byte is received, one is left, and the registers hold their sums and the difference exactly. -/
theorem byteReceived_progress (b : Byte) (hq : s.seq = .rByte) (hp : ProgressInv s) (hc : ReadChunkInv s) :
    (byteReceived b s).bptr.toNat = s.bptr.toNat + 1 ∧ (byteReceived b s).cursor.toNat = (s.cursor.toNat + 1) % 65536
      ∧ (byteReceived b s).rem.toNat + 1 = s.rem.toNat ∧ (byteReceived b s).cidx.toNat = s.cidx.toNat + 1 := by
  obtain ⟨hsum, hlen, -⟩ := hp
  obtain ⟨-, hchunk, -, -, -, hin, -⟩ := hc
  have hlt := hin (.inr (.inl hq))
  simp only [Config.CAPACITY] at hlen
  simp only [byteReceived, cursorPlus, BitVec.toNat_ofNat, true_and]
  bv_omega

/-- R134: one byte more is stored, and one less is left. -/
theorem sequenceInv_byteReceived (b : Byte) (hq : s.seq = .rByte) (hp : ProgressInv s) (hc : ReadChunkInv s) :
    SequenceInv (byteReceived b s) := by
  obtain ⟨hbptr, hcursor, hrem, hcidx⟩ := byteReceived_progress b hq hp hc
  obtain ⟨hsum, hlen, hcap⟩ := hp
  obtain ⟨hpos, hchunk, hle, hwhole, -, hin, -⟩ := hc
  have hlt := hin (.inr (.inl hq))
  have hbytelen : (byteReceived b s).bytelen = s.bytelen := rfl
  have hchunk' : (byteReceived b s).chunk = s.chunk := rfl
  have hparams : (byteReceived b s).params = s.params := rfl
  have hp' : ProgressInv (byteReceived b s) := by
    simp only [ProgressInv, hbptr, hcursor, hbytelen, Config.CAPACITY] at *
    omega
  have hleft : (byteReceived b s).rem.toNat + (s.cidx.toNat + 1) = s.rem.toNat + s.cidx.toNat := by omega
  have hstart : s.bptr.toNat + 1 - (s.cidx.toNat + 1) = s.bptr.toNat - s.cidx.toNat := by omega
  refine sequenceInv_of_read rfl hp' ?_
  simp only [ReadChunkInv, hbptr, hcidx, hchunk', hparams, hleft, hstart]
  exact ⟨hpos, hchunk, by omega, hwhole, nofun, nofun, fun _ => ⟨by omega, hlt⟩⟩

/-- R132, R140 d: the chunk behind had READ_CAP bytes, since bytes are left. -/
theorem readCap_of_full (full : s.cidx = s.chunk) (left : s.rem ≠ 0#17) (hc : ReadChunkInv s) :
    s.bptr.toNat % s.params.readCap = 0 := by
  obtain ⟨-, hchunk, hle, hwhole, -⟩ := hc
  have hrem := mt rem_toNat_eq_zero.mp left
  rw [full] at hchunk hle hwhole
  have hcap : s.chunk.toNat = s.params.readCap := by omega
  rw [hcap] at hle hwhole
  rw [← Nat.sub_add_cancel hle, Nat.add_mod_right, hwhole]

theorem Performs.sequenceInv (h : Performs s t) (hi : SequenceInv s) : SequenceInv t := by
  obtain ⟨hprog, hdata, hwait, hread, haddr⟩ := id hi
  cases h with
  | waits rest hu =>
    obtain ⟨env, rfl, -⟩ := hu
    exact hi
  | faults f run hu =>
    obtain ⟨env, rfl, -⟩ := hu
    exact sequenceInv_of_rest rfl
  | finishes => exact sequenceInv_of_rest rfl
  | goesOn start row hu => exact row.sequenceInv start hu hi
  | sendsByte row hu =>
    obtain ⟨env, rfl, -⟩ := hu
    rw [row] at hprog hdata
    obtain ⟨hrem, hchunk, -, hbyte, -⟩ := hdata rfl
    have hlt := hbyte row
    have hnext : (s.cidx + 1#8).toNat = s.cidx.toNat + 1 := by bv_omega
    by_cases hmore : s.cidx + 1#8 < s.chunk
    · rw [if_pos hmore]
      exact sequenceInv_of_dataChunk rfl (hprog rfl) ⟨hrem, hchunk, nofun, fun _ => hmore, nofun⟩
    · rw [if_neg hmore]
      have hall : (s.cidx + 1#8).toNat = s.chunk.toNat := by
        rw [BitVec.lt_def] at hmore
        omega
      exact sequenceInv_of_dataChunk rfl (hprog rfl) ⟨hrem, hchunk, nofun, nofun, fun _ => hall⟩
  | marksTime row hu =>
    obtain ⟨env, rfl, -⟩ := hu
    obtain ⟨hq, rfl⟩ | ⟨hq | ⟨hq, hmore⟩, rfl⟩ := row <;> rw [hq] at hprog hwait hread
    · obtain ⟨hpage, -, hsettle⟩ := hwait (.inl rfl)
      exact sequenceInv_of_wait (.inl rfl) (hprog rfl) ⟨hpage, nofun, fun _ => hsettle (by rw [hq]; rfl)⟩
    · obtain ⟨hp, hpos, hchunk, hle, hwhole, hstart, -⟩ := hread rfl
      have hcap := (readCap_bounds s.params).1
      have h0 := hstart (.inr hq)
      have hlt : s.cidx.toNat < s.chunk.toNat := by omega
      exact sequenceInv_of_read rfl hp ⟨hpos, hchunk, hle, hwhole, nofun, fun _ => hlt, nofun⟩
    · obtain ⟨hp, hpos, hchunk, hle, hwhole, -, -, hend⟩ := hread rfl
      have hlt : s.cidx.toNat < s.chunk.toNat := by
        have hne := mt BitVec.toNat_inj.mp hmore
        have hend := hend hq
        omega
      exact sequenceInv_of_read rfl hp ⟨hpos, hchunk, hle, hwhole, nofun, fun _ => hlt, nofun⟩
  | closesChunk row hu =>
    obtain ⟨env, rfl, -⟩ := hu
    rw [row] at hprog hdata
    exact sequenceInv_chunkWritten (hprog rfl) (hdata rfl)
  | storesByte row _ b hu =>
    obtain ⟨env, rfl, -⟩ := hu
    rw [row] at hread
    obtain ⟨hp, hc⟩ := hread rfl
    exact sequenceInv_byteReceived b row hp hc
  | startsWriteChunk row left prim hu =>
    have hw := hwait (row.symm.imp_left fun hq => by rw [hq]; rfl)
    have hp : ProgressInv s := hprog (by obtain hq | hq := row <;> rw [hq] <;> rfl)
    have hrem := mt rem_toNat_eq_zero.mp left
    obtain ⟨env, rfl, -⟩ := hu
    refine sequenceInv_of_dataChunk rfl hp ⟨Nat.pos_of_ne_zero hrem, writeChunk_toNat s, fun _ => rfl, nofun, nofun⟩
  | startsReadChunk row full left hu =>
    obtain ⟨env, rfl, -⟩ := hu
    rw [row] at hread
    obtain ⟨hp, hc⟩ := hread rfl
    have hwhole := readCap_of_full full left hc
    have hrem := Nat.pos_of_ne_zero (mt rem_toNat_eq_zero.mp left)
    exact sequenceInv_of_read rfl hp
      ⟨hrem, readChunk_toNat s, Nat.zero_le _, hwhole, fun _ => rfl, nofun, nofun⟩

end Performs
end Sys2Proof.Machine

/-! ## The issue pseudocode (spec/40_write.md R100, spec/41_addr.md R120, spec/42_read.md R130): everything it can do -/

namespace Sys2Proof.Machine

open Sys2Proof.Safety

/-! ### The 28 commands by family -/

/-- R76: every command is a WRITE.T, a READ.T, a READ.T.N or ADDR. -/
theorem instr_cases (i : Instr) :
    (∃ ty bus, i = .write ty bus) ∨ (∃ ty bus, i = .read ty bus) ∨ (∃ ty bus, i = .seek ty bus) ∨ ∃ bus, i = .addr bus := by
  cases i with
  | writeB bus => exact .inl ⟨.b, bus, rfl⟩
  | writeU8 bus => exact .inl ⟨.u8, bus, rfl⟩
  | writeI8 bus => exact .inl ⟨.i8, bus, rfl⟩
  | writeU16 bus => exact .inl ⟨.u16, bus, rfl⟩
  | writeI16 bus => exact .inl ⟨.i16, bus, rfl⟩
  | writeU32 bus => exact .inl ⟨.u32, bus, rfl⟩
  | writeI32 bus => exact .inl ⟨.i32, bus, rfl⟩
  | writeF32 bus => exact .inl ⟨.f32, bus, rfl⟩
  | writeF64 bus => exact .inl ⟨.f64, bus, rfl⟩
  | readB bus => exact .inr (.inl ⟨.b, bus, rfl⟩)
  | readU8 bus => exact .inr (.inl ⟨.u8, bus, rfl⟩)
  | readI8 bus => exact .inr (.inl ⟨.i8, bus, rfl⟩)
  | readU16 bus => exact .inr (.inl ⟨.u16, bus, rfl⟩)
  | readI16 bus => exact .inr (.inl ⟨.i16, bus, rfl⟩)
  | readU32 bus => exact .inr (.inl ⟨.u32, bus, rfl⟩)
  | readI32 bus => exact .inr (.inl ⟨.i32, bus, rfl⟩)
  | readF32 bus => exact .inr (.inl ⟨.f32, bus, rfl⟩)
  | readF64 bus => exact .inr (.inl ⟨.f64, bus, rfl⟩)
  | readBN bus => exact .inr (.inr (.inl ⟨.b, bus, rfl⟩))
  | readU8N bus => exact .inr (.inr (.inl ⟨.u8, bus, rfl⟩))
  | readI8N bus => exact .inr (.inr (.inl ⟨.i8, bus, rfl⟩))
  | readU16N bus => exact .inr (.inr (.inl ⟨.u16, bus, rfl⟩))
  | readI16N bus => exact .inr (.inr (.inl ⟨.i16, bus, rfl⟩))
  | readU32N bus => exact .inr (.inr (.inl ⟨.u32, bus, rfl⟩))
  | readI32N bus => exact .inr (.inr (.inl ⟨.i32, bus, rfl⟩))
  | readF32N bus => exact .inr (.inr (.inl ⟨.f32, bus, rfl⟩))
  | readF64N bus => exact .inr (.inr (.inl ⟨.f64, bus, rfl⟩))
  | addr bus => exact .inr (.inr (.inr ⟨bus, rfl⟩))

section Families

variable (ty : ElemType) (bus : Byte)

@[simp] theorem startOf_write : startOf (.write ty bus) = startWrite ty := by cases ty <;> rfl
@[simp] theorem startOf_read : startOf (.read ty bus) = startRead ty := by cases ty <;> rfl
@[simp] theorem startOf_seek : startOf (.seek ty bus) = startSeek ty := by cases ty <;> rfl
@[simp] theorem startOf_addr : startOf (.addr bus) = startAddr := rfl
@[simp] theorem useOf_write : useOf (.write ty bus) = .needed := by cases ty <;> rfl
@[simp] theorem useOf_read : useOf (.read ty bus) = .needed := by cases ty <;> rfl
@[simp] theorem useOf_seek : useOf (.seek ty bus) = .null := by cases ty <;> rfl
@[simp] theorem useOf_addr : useOf (.addr bus) = .unused := rfl
@[simp] theorem bus_write : (Instr.write ty bus).bus = bus := by cases ty <;> rfl
@[simp] theorem bus_read : (Instr.read ty bus).bus = bus := by cases ty <;> rfl
@[simp] theorem bus_seek : (Instr.seek ty bus).bus = bus := by cases ty <;> rfl

end Families

/-! ### The acceptance of an Issue (R185) -/

/-- The event that the acceptance of an Issue records. -/
def issueEvent (word : CmdWord) (use : BufferUse) (r : IssueReq) : Event :=
  .issue word r.cur r.len r.settle (lentBytes use r).length

section Accept

variable (word : CmdWord) (use : BufferUse) (r : IssueReq) (s : State)

@[simp] theorem accept_cursor : (accept word use r s).cursor = issuedCursor r s := rfl
@[simp] theorem accept_cursorLoaded : (accept word use r s).cursorLoaded = true := rfl
@[simp] theorem accept_len : (accept word use r s).len = r.len := rfl
@[simp] theorem accept_settle : (accept word use r s).settle = r.settle := rfl
@[simp] theorem accept_cmd : (accept word use r s).cmd = word := rfl
@[simp] theorem accept_buf : (accept word use r s).buf = Memory.ofBytes (lentBytes use r) := rfl
@[simp] theorem accept_bufLen : (accept word use r s).bufLen = (lentBytes use r).length := rfl
@[simp] theorem accept_seq : (accept word use r s).seq = s.seq := rfl
@[simp] theorem accept_rem : (accept word use r s).rem = s.rem := rfl
@[simp] theorem accept_bptr : (accept word use r s).bptr = 0#17 := rfl
@[simp] theorem accept_bytelen : (accept word use r s).bytelen = s.bytelen := rfl
@[simp] theorem accept_chunk : (accept word use r s).chunk = s.chunk := rfl
@[simp] theorem accept_cidx : (accept word use r s).cidx = s.cidx := rfl
@[simp] theorem accept_tmark : (accept word use r s).tmark = s.tmark := rfl
@[simp] theorem accept_result : (accept word use r s).result = s.result := rfl
@[simp] theorem accept_resultValid : (accept word use r s).resultValid = s.resultValid := rfl
@[simp] theorem accept_busy : (accept word use r s).busy = true := rfl
@[simp] theorem accept_hist : (accept word use r s).hist = s.hist ++ [issueEvent word use r] := rfl
@[simp] theorem accept_params : (accept word use r s).params = s.params := rfl
@[simp] theorem accept_answers : (accept word use r s).answers = s.answers := rfl
@[simp] theorem accept_inbox : (accept word use r s).inbox = s.inbox.tail := rfl
@[simp] theorem accept_reply : (accept word use r s).reply = .accepted := rfl

end Accept

/-! ### The issue pseudocode (R100, R120, R130) -/

/-- BYTELEN, REM and BPTR as a write or a buffered read starts with them. -/
def loadRange (ty : ElemType) (s : State) : State :=
  { s with
    bytelen := byteLength s.params ty s.len, rem := (byteLength s.params ty s.len).setWidth 17, bptr := 0#17 }

/-- The byte length of a command that has been accepted: LEN × W(T) (R30). -/
def lengthOf (ty : ElemType) (s : State) : Nat := s.len.toNat * width s.params ty

section Start

variable (ty : ElemType) (s : State)

/-- R100, R130: REM holds a byte length within the device exactly. -/
theorem loadRange_rem (h : s.cursor.toNat + lengthOf ty s ≤ Config.CAPACITY) :
    (loadRange ty s).rem.toNat = lengthOf ty s := by
  simp only [Config.CAPACITY] at h
  simp only [loadRange, BitVec.toNat_setWidth, byteLength_toNat, lengthOf] at *
  omega

/-- R100, R130: the capacity check, on the exact byte length. -/
theorem exceedsCapacity_loadByteLength :
    exceedsCapacity (loadByteLength ty s) = true ↔ Config.CAPACITY < s.cursor.toNat + lengthOf ty s := by
  simp [exceedsCapacity, loadByteLength, byteLength_toNat, lengthOf]

/-- R100. -/
theorem startWrite_eq : startWrite ty s =
    if Config.CAPACITY < s.cursor.toNat + lengthOf ty s then finish .exceedRomCapacity (loadByteLength ty s)
    else nextWriteChunk (loadRange ty s) := by
  simp only [startWrite, exceedsCapacity_loadByteLength]
  rfl

/-- R130, N = 0. -/
theorem startRead_eq : startRead ty s =
    if Config.CAPACITY < s.cursor.toNat + lengthOf ty s then finish .exceedRomCapacity (loadByteLength ty s)
    else nextReadChunk (loadRange ty s) := by
  simp only [startRead, exceedsCapacity_loadByteLength]
  rfl

/-- R130, N = 1. -/
theorem startSeek_eq : startSeek ty s =
    if Config.CAPACITY < s.cursor.toNat + lengthOf ty s then finish .exceedRomCapacity (loadByteLength ty s)
    else { loadByteLength ty s with bptr := 0#17, cursor := cursorPlus s (lengthOf ty s), seq := .aBegin } := by
  have hlen : (loadByteLength ty s).bytelen.toNat = lengthOf ty s := byteLength_toNat s.params ty s.len
  simp only [startSeek, exceedsCapacity_loadByteLength, hlen]
  rfl

end Start

/-- What the issue pseudocode of a command can do, from the state in which its Issue has been accepted. -/
inductive Starts (s : State) : Instr → State → Prop
  /-- The range ends above the device (R100, R130). -/
  | rejected {i : Instr} (ty : ElemType) (ranged : useOf i ≠ .unused)
      (above : Config.CAPACITY < s.cursor.toNat + lengthOf ty s) :
    Starts s i (finish .exceedRomCapacity (loadByteLength ty s))
  /-- There is no byte to write or read (R101, R132). -/
  | nothing {i : Instr} (ty : ElemType) (buffered : useOf i = .needed) (left : (loadRange ty s).rem = 0#17) :
    Starts s i (finish .success (loadRange ty s))
  | write (ty : ElemType) (bus : Byte) (fits : s.cursor.toNat + lengthOf ty s ≤ Config.CAPACITY)
      (left : (loadRange ty s).rem ≠ 0#17) :
    Starts s (.write ty bus)
      { loadRange ty s with
        chunk := BitVec.ofNat 8 (min (bytesToBoundary s) (loadRange ty s).rem.toNat), cidx := 0#8, seq := .wBegin }
  | read (ty : ElemType) (bus : Byte) (fits : s.cursor.toNat + lengthOf ty s ≤ Config.CAPACITY)
      (left : (loadRange ty s).rem ≠ 0#17) :
    Starts s (.read ty bus)
      { loadRange ty s with
        chunk := BitVec.ofNat 8 (min s.params.readCap (loadRange ty s).rem.toNat), cidx := 0#8, seq := .rReq }
  | seek (ty : ElemType) (bus : Byte) (fits : s.cursor.toNat + lengthOf ty s ≤ Config.CAPACITY) :
    Starts s (.seek ty bus)
      { loadByteLength ty s with bptr := 0#17, cursor := cursorPlus s (lengthOf ty s), seq := .aBegin }
  | addr (bus : Byte) : Starts s (.addr bus) (startAddr s)

/-- Everything the issue pseudocode can do. -/
theorem startOf_cases (i : Instr) (s : State) : Starts s i (startOf i s) := by
  obtain ⟨ty, bus, rfl⟩ | ⟨ty, bus, rfl⟩ | ⟨ty, bus, rfl⟩ | ⟨bus, rfl⟩ := instr_cases i
  · rw [startOf_write, startWrite_eq]
    split
    next h => exact .rejected ty (by simp) h
    next h =>
      rcases nextWriteChunk_cases (loadRange ty s) with ⟨h0, hn⟩ | ⟨h0, hn⟩ <;> rw [hn]
      · exact .nothing ty (useOf_write ty bus) h0
      · exact .write ty bus (Nat.le_of_not_lt h) h0
  · rw [startOf_read, startRead_eq]
    split
    next h => exact .rejected ty (by simp) h
    next h =>
      rcases nextReadChunk_cases (loadRange ty s) with ⟨h0, hn⟩ | ⟨h0, hn⟩ <;> rw [hn]
      · exact .nothing ty (useOf_read ty bus) h0
      · exact .read ty bus (Nat.le_of_not_lt h) h0
  · rw [startOf_seek, startSeek_eq]
    split
    next h => exact .rejected ty (by simp) h
    next h => exact .seek ty bus (Nat.le_of_not_lt h)
  · exact .addr bus

/-- What the issue pseudocode leaves as the acceptance of the Issue set it, and what is not the engine's. -/
def KeepsIssue (s t : State) : Prop :=
  t.cmd = s.cmd ∧ t.cursorLoaded = s.cursorLoaded ∧ t.len = s.len ∧ t.settle = s.settle ∧ t.buf = s.buf
    ∧ t.bufLen = s.bufLen ∧ t.params = s.params ∧ t.tmark = s.tmark ∧ t.answers = s.answers ∧ t.inbox = s.inbox
    ∧ t.reply = s.reply ∧ (s.bptr = 0#17 → t.bptr = 0#17)

section Starts

variable {s t : State} {i : Instr}

theorem Starts.keepsIssue (h : Starts s i t) : KeepsIssue s t := by
  cases h with
  | rejected => exact ⟨rfl, rfl, rfl, rfl, rfl, rfl, rfl, rfl, rfl, rfl, rfl, id⟩
  | _ => exact ⟨rfl, rfl, rfl, rfl, rfl, rfl, rfl, rfl, rfl, rfl, rfl, fun _ => rfl⟩

/-- The issue pseudocode finishes the command at once, or leaves it running. -/
theorem Starts.status (h : Starts s i t) :
    (∃ r, Finished r [] s t) ∨ t.seq.running = true ∧ GoesOn t.seq [] s t := by
  cases h with
  | rejected | nothing => exact .inl ⟨_, rfl, rfl, rfl, rfl, by simp [loadByteLength, loadRange]⟩
  | write | read | seek | addr => exact .inr ⟨rfl, rfl, rfl, rfl, rfl, by simp [loadRange, loadByteLength, startAddr]⟩

end Starts
end Sys2Proof.Machine

/-! ## The invariants at reset and after every step: the proofs of EveryStepKeepsTheInvariant and ResetMeetsTheInvariants -/

namespace Sys2Proof.Machine

open Sys2Proof.Safety

/-! ### Every step keeps the engine's invariant -/

section Engine

variable {s t : State}

/-- With no command running, only the buffer has an invariant. -/
theorem engineInv_of_idle (hq : t.seq = .idle) (hb : t.busy = false) (hbuf : BufferInv t) : EngineInv t :=
  ⟨hbuf, by simp [StatusInv, hq, hb], commandInv_of_rest (by rw [hq]; rfl), sequenceInv_of_rest (by rw [hq]; rfl)⟩

/-- R26, R27, R33: the sequencer keeps the invariant. -/
theorem Performs.engineInv (h : Performs s t) (hi : EngineInv s) : EngineInv t := by
  obtain ⟨hbuf, hstatus, hcmd, hseq⟩ := hi
  exact ⟨h.bufferInv hbuf, h.statusInv hstatus, h.commandInv hcmd, h.sequenceInv hseq⟩

/-! #### The issue step -/

/-- OP and N of a command's word (R71, R72). -/
theorem encode_opN (i : Instr) : (encode i).extractLsb' 0 4 = i.low.extractLsb' 0 4 :=
  BitVec.extractLsb'_append_eq_of_add_le (by decide)

/-- R71, R72: OP and N of the three families with an element type. -/
theorem opN_of_family (ty : ElemType) (bus : Byte) :
    (Instr.write ty bus).low.extractLsb' 0 4 = 1#4 ∧ (Instr.read ty bus).low.extractLsb' 0 4 = 2#4
      ∧ (Instr.seek ty bus).low.extractLsb' 0 4 = 10#4 := by
  cases ty <;> simp [Instr.write, Instr.read, Instr.seek, Instr.low]

theorem commandWord_encode (i : Instr) : WellFormed.commandWord (encode i) = true := by
  rw [← decode_isSome, decode_encode]
  rfl

/-- R185: the lent bytes are a buffer below 2^20 bytes in canonical form. -/
theorem bufferInv_accept (word : CmdWord) (use : BufferUse) (r : IssueReq) (s : State) :
    BufferInv (accept word use r s) := by
  refine ⟨Memory.ofBytes_wf _, fun cell => Memory.mem_ofBytes, ?_⟩
  have hlent : ∀ lent : Option LentBuffer, ((lent.map Subtype.val).getD []).length < 2 ^ 20
    | none => by decide
    | some bytes => of_decide_eq_true bytes.property
  cases use with
  | null => exact Nat.two_pow_pos 20
  | needed | unused => exact hlent r.buf

/-- R28, R54: the range a write or buffered read starts with. -/
theorem progressInv_loadRange {ty : ElemType} (h : s.cursor.toNat + lengthOf ty s ≤ Config.CAPACITY) :
    ProgressInv (loadRange ty s) := by
  have hrem := loadRange_rem ty s h
  have hlen : (loadRange ty s).bytelen.toNat = lengthOf ty s := byteLength_toNat s.params ty s.len
  refine ⟨?_, ?_, ?_⟩
  · rw [hrem, hlen]
    exact Nat.zero_add _
  · omega
  · rw [hrem]
    exact h

/-- R185, R29: the state in which an Issue of command i has been accepted. -/
structure Issued (i : Instr) (s : State) : Prop where
  buffer : BufferInv s
  busy : s.busy = true
  loaded : s.cursorLoaded = true
  cmd : s.cmd = encode i
  bptr : s.bptr = 0#17

theorem issued_accept (i : Instr) (r : IssueReq) (s : State) : Issued i (accept (encode i) (useOf i) r s) :=
  ⟨bufferInv_accept _ _ r s, rfl, rfl, rfl, rfl⟩

theorem Starts.sequenceInv {i : Instr} (h : Starts s i t) : SequenceInv t := by
  cases h with
  | rejected | nothing => exact sequenceInv_of_rest rfl
  | write ty bus fits left =>
    have hrem := Nat.pos_of_ne_zero (mt rem_toNat_eq_zero.mp left)
    exact sequenceInv_of_dataChunk rfl (progressInv_loadRange fits)
      ⟨hrem, writeChunk_toNat (loadRange ty s), fun _ => rfl, nofun, nofun⟩
  | read ty bus fits left =>
    have hrem := Nat.pos_of_ne_zero (mt rem_toNat_eq_zero.mp left)
    exact sequenceInv_of_read rfl (progressInv_loadRange fits)
      ⟨hrem, readChunk_toNat (loadRange ty s), Nat.zero_le _, Nat.zero_mod _, fun _ => rfl, nofun, nofun⟩
  | seek | addr => exact sequenceInv_of_addr rfl rfl

theorem Starts.commandInv {i : Instr} (h : Starts s i t) (hcmd : t.cmd = encode i) : CommandInv t := by
  rw [CommandInv, hcmd, encode_opN, commandWord_encode]
  cases h with
  | rejected | nothing => exact ⟨nofun, nofun, nofun, nofun⟩
  | write ty bus => exact ⟨fun _ => rfl, fun _ => (opN_of_family ty bus).1, nofun, nofun⟩
  | read ty bus => exact ⟨fun _ => rfl, nofun, fun _ => (opN_of_family ty bus).2.1, nofun⟩
  | seek ty bus => exact ⟨fun _ => rfl, nofun, nofun, fun _ => .inr (opN_of_family ty bus).2.2⟩
  | addr => exact ⟨fun _ => rfl, nofun, nofun, fun _ => .inl rfl⟩

theorem Starts.engineInv {i : Instr} (h : Starts s i t) (hs : Issued i s) : EngineInv t := by
  obtain ⟨hcmd, hloaded, -, -, hbuf, hlen, -⟩ := h.keepsIssue
  have hbuffer : BufferInv t := by
    rw [BufferInv, hbuf, hlen]
    exact hs.buffer
  refine ⟨hbuffer, ?_, h.commandInv (hcmd.trans hs.cmd), h.sequenceInv⟩
  obtain ⟨r, hseq, hbusy, -⟩ | ⟨hr, -, hbusy, -⟩ := h.status
  · simp [StatusInv, hseq, hbusy]
  · simp [StatusInv, hbusy, hs.busy, hloaded, hs.loaded, ((seq_running_iff _).mp hr).1]

/-- TIME is no part of the invariant. -/
theorem engineInv_advance (k : Nat) (h : EngineInv s) : EngineInv (advance k s) := by
  rw [advance_changes_time]
  exact h

/-- Settles O42: the step is the sequencer's, or an Issue's, or changes no register, or is a reset. -/
theorem everyStepKeepsTheInvariant : Obligations.EveryStepKeepsTheInvariant := by
  unfold Obligations.EveryStepKeepsTheInvariant
  intro s t hi hstep
  rcases step_cases hstep with ⟨-, rfl⟩ | ⟨reg, n, -, rfl⟩ | ⟨word, reasons, -, rfl⟩ | ⟨i, r, -, -, -, rfl⟩ | ⟨-, rfl⟩
  · exact engineInv_advance 0 (engineInv_of_idle rfl rfl ⟨rfl, nofun, Nat.two_pow_pos 20⟩)
  · exact engineInv_advance 0 hi
  · exact engineInv_advance 0 hi
  · exact engineInv_advance 0 ((startOf_cases i _).engineInv (issued_accept i r s))
  · exact (perform_dropPass_cases s).engineInv hi

/-- Settles O44: in IDLE no clause about a running command applies, no byte is lent and no event recorded. -/
theorem resetMeetsTheInvariants : Obligations.ResetMeetsTheInvariants := by
  unfold Obligations.ResetMeetsTheInvariants
  refine ⟨engineInv_of_idle rfl rfl ⟨rfl, nofun, Nat.two_pow_pos 20⟩, ?_, rfl, ?_⟩
  · simp [TransactionInv, State.reset]
  · simp [BalanceInv, State.reset]

end Engine
end Sys2Proof.Machine

/-! ## The open transaction (spec/40_write.md R102, R105, spec/41_addr.md R121): the proof of EveryStepKeepsTheTransaction -/

namespace Sys2Proof.Machine

open Sys2Proof.Safety

/-- The bus events of the open transaction that TransactionInv names: none before Begin, after the close, and in a read. -/
def sent (s : State) : List Event :=
  match s.seq with
  | .wAhi | .pAhi | .aAhi => [.begin (busOf s)]
  | .wAlo | .pAlo | .aAlo => [.begin (busOf s), .wr (offsetHigh s)]
  | .pEnd | .aEnd => offsetEvents (busOf s) s.cursor
  | .wData | .wEnd =>
    offsetEvents (busOf s) s.cursor
      ++ (List.range s.cidx.toNat).map (fun j => .wr (Memory.read s.buf (s.bptr.toNat + j)))
  | _ => []

/-- TransactionInv says that the events of the open transaction are the last ones on the bus. -/
theorem transactionInv_iff (s : State) : TransactionInv s ↔ sent s <:+ busEvents s.hist := by
  cases hq : s.seq <;> simp [TransactionInv, sent, hq]

/-- The next event of the transaction. -/
theorem suffix_concat {xs ys : List Event} (e : Event) (h : xs <:+ ys) : xs ++ [e] <:+ ys ++ [e] := by
  obtain ⟨front, rfl⟩ := h
  exact ⟨front, (List.append_assoc ..).symm⟩

section Transaction

variable {s t : State}

/-- A step that records one bus event more of the transaction. -/
theorem transactionInv_of_sent {e : Event} (hi : TransactionInv s) (he : isBusEvent e = true)
    (ht : t.hist = s.hist ++ [e]) (hs : sent t = sent s ++ [e]) : TransactionInv t := by
  rw [transactionInv_iff] at hi ⊢
  rw [ht, hs, busEvents_append, busEvents_single, if_pos he]
  exact suffix_concat e hi

/-- Where no transaction is open there is nothing to show. -/
theorem transactionInv_of_none (h : sent t = []) : TransactionInv t := by
  rw [transactionInv_iff, h]
  exact List.nil_suffix

/-- A step that changes no register and records no bus event. -/
theorem transactionInv_of_same (hi : TransactionInv s) (hs : sent t = sent s) (hb : busEvents t.hist = busEvents s.hist) :
    TransactionInv t := by
  rw [transactionInv_iff] at hi ⊢
  rwa [hs, hb]

/-- R102, R105, R121: a row records the next event of the transaction, or none is open after it. -/
theorem Row.transactionInv {u : State} {p q : Seq} {e : Event} (hq : s.seq = p) (h : Row s p e q) (hu : Records [e] s u)
    (hstart : p = .wAlo → s.cidx.toNat = 0) (hi : TransactionInv s) : TransactionInv { u with seq := q } := by
  obtain ⟨env, rfl, -⟩ := hu
  cases h
  case wBegin | pBegin | aBegin | wAhi | pAhi | aAhi | pAlo | aAlo =>
    exact transactionInv_of_sent hi rfl rfl (by simp only [sent, hq]; rfl)
  case wAlo =>
    refine transactionInv_of_sent hi rfl rfl ?_
    simp only [sent, hq, recorded, hstart rfl]
    rfl
  case rAvail v => cases v <;> exact transactionInv_of_none rfl
  all_goals exact transactionInv_of_none rfl

theorem Performs.transactionInv (h : Performs s t) (hi : EngineInv s) (ht : TransactionInv s) : TransactionInv t := by
  obtain ⟨-, -, -, -, hdata, -⟩ := hi
  cases h with
  | waits rest hu =>
    obtain ⟨env, rfl, -⟩ := hu
    exact transactionInv_of_same ht rfl (by simp [recorded])
  | faults f run hu =>
    obtain ⟨env, rfl, -⟩ := hu
    exact transactionInv_of_none rfl
  | goesOn start row hu =>
    refine row.transactionInv start hu (fun hp => ?_) ht
    obtain ⟨-, -, hstart, -⟩ := hdata (by rw [start, hp]; rfl)
    exact hstart (by simp [start, hp])
  | sendsByte row hu =>
    obtain ⟨-, -, -, hbyte, -⟩ := hdata (by rw [row]; rfl)
    have hlt := hbyte row
    have hnext : (s.cidx + 1#8).toNat = s.cidx.toNat + 1 := by bv_omega
    obtain ⟨env, rfl, -⟩ := hu
    refine transactionInv_of_sent ht rfl rfl ?_
    split <;> simp [sent, row, recorded, hnext, List.range_succ, writeIndex, busOf]
  | marksTime row hu => obtain ⟨-, rfl⟩ | ⟨-, rfl⟩ := row <;> exact transactionInv_of_none rfl
  | @closesChunk u row hu =>
    refine transactionInv_of_none ?_
    obtain ⟨hq, -⟩ | ⟨hq, -⟩ := chunkWritten_seq_cases u <;> simp only [sent, hq]
  | storesByte | startsWriteChunk | startsReadChunk | finishes => exact transactionInv_of_none rfl

/-- The issue step opens no transaction. -/
theorem Starts.sent_eq_nil {i : Instr} (h : Starts s i t) : sent t = [] := by
  cases h <;> rfl

theorem transactionInv_advance (k : Nat) (h : TransactionInv s) : TransactionInv (advance k s) := by
  rw [advance_changes_time]
  exact h

/-- Settles O43: the step is the sequencer's, or opens no transaction, or changes neither a register nor the bus. -/
theorem everyStepKeepsTheTransaction : Obligations.EveryStepKeepsTheTransaction := by
  unfold Obligations.EveryStepKeepsTheTransaction
  intro s t hi ht hstep
  rcases step_cases hstep with ⟨-, rfl⟩ | ⟨reg, n, -, rfl⟩ | ⟨word, reasons, -, rfl⟩ | ⟨i, r, -, -, -, rfl⟩ | ⟨-, rfl⟩
  · exact transactionInv_advance 0 (transactionInv_of_none rfl)
  · exact transactionInv_advance 0 ht
  · exact transactionInv_advance 0 (transactionInv_of_same ht rfl (by simp [isBusEvent]))
  · exact transactionInv_advance 0 (transactionInv_of_none (startOf_cases i _).sent_eq_nil)
  · exact (perform_dropPass_cases s).transactionInv hi ht

end Transaction

end Sys2Proof.Machine

/-! ## The step of a command, reset and the host's reads (spec/60_exceptions.md, spec/70_reset_and_hazards.md): the proofs of their
statements -/

namespace Sys2Proof.Machine

open Sys2Proof.Safety

/-! ### The command that a step runs -/

/-- While a command runs and the host is quiet, exec of any command performs the primitive of STATE. -/
theorem exec_of_hostQuiet {s : State} (hh : hostQuiet s = true) (hr : s.seq.running = true) (i : Instr) :
    exec i s = .next (perform (dropPass s)) := by
  rw [exec_eq, command_running (fetch_eq_none_of_hostQuiet hh hr), sequencerStep_of_running hr]

/-- Settles O6: an Issue that lands decides the step, and a quiet host leaves it to the primitive of STATE. -/
theorem stepRunsTheDecodedCommand : Obligations.StepRunsTheDecodedCommand := by
  unfold Obligations.StepRunsTheDecodedCommand
  refine ⟨fun s r i hf hd => ?_, fun s i hh hr _ => ?_⟩
  · rcases step_of_fetch hf with ⟨i', hd', hs⟩ | ⟨hd', -⟩
    · cases hd.symm.trans hd'
      exact hs
    · cases hd.symm.trans hd'
  · rw [step_of_hostQuiet hh hr, exec_of_hostQuiet hh hr]

/-- Settles O7: exec of any command and step both perform the primitive of STATE. -/
theorem stateNamesThePrimitive : Obligations.StateNamesThePrimitive := by
  unfold Obligations.StateNamesThePrimitive
  intro s i hh hr
  exact ⟨exec_of_hostQuiet hh hr i, by rw [step_of_hostQuiet hh hr, exec_of_hostQuiet hh hr]⟩

/-- Settles O8: with no host move the step is the sequencer's, which lets TIME go by in IDLE and has stopped in FAULT. -/
theorem idleWaitsAndFaultStops : Obligations.IdleWaitsAndFaultStops := by
  unfold Obligations.IdleWaitsAndFaultStops
  intro s hin
  have hs : step s = sequencerStep s := step_eq_sequencerStep (by simp [fetch, hin]) (by simp [hin]) (by simp [hin])
  have hd : dropPass s = s := by simp [dropPass, hin]
  refine ⟨fun hq => ⟨advance 0 s, ?_, advance_time 0 s, advance_changes_time 0 s⟩, fun reason hq => ?_⟩
  · simp [hs, sequencerStep, hq, perform, hd]
  · simp [hs, sequencerStep, hq, hin]

/-! ### The reasons of a refusal -/

/-- A step in which an Issue lands accepts it, or answers the reasons against it. -/
theorem reply_of_fetch {s t : State} {r : IssueReq} (hf : fetch s = some r) (h : step s = .next t) :
    (∃ i, refuseReasons true (useOf i) r s = [] ∧ t = advance 0 (startOf i (accept (encode i) (useOf i) r s)))
      ∨ t.reply = .refused (issueReasons r s) := by
  rcases step_of_fetch hf with ⟨i, hd, hs⟩ | ⟨hd, hs⟩ <;> rw [hs] at h
  · rw [exec_eq] at h
    by_cases hr : refuseReasons true (useOf i) r s = []
    · rw [command_accepted hf hr] at h
      exact .inl ⟨i, hr, (Host.Outcome.next.inj h).symm⟩
    · rw [command_refused hf hr] at h
      cases h
      exact .inr (by simp [refuse, issueReasons, hd])
  · cases h
    exact .inr (by simp [refuseReserved, refuse, issueReasons, hd])


/-! ### Reset -/

/-- Settles O39: each field of the state after reset. -/
theorem resetState : Obligations.ResetState := by
  unfold Obligations.ResetState
  exact ⟨rfl, rfl, rfl, rfl, rfl, rfl⟩

/-- Settles O40: a reset is State.reset with the environment's part kept, and then TIME goes by. -/
theorem resetFromAnyState : Obligations.ResetFromAnyState := by
  unfold Obligations.ResetFromAnyState
  intro s rest hin
  refine ⟨hostReset s, step_of_reset (by simp [hin]), by simp [hostReset, advance_time_eq], ?_⟩
  rw [hostReset, advance_changes_time]
  simp [hin]

/-! ### The host's reads -/

/-- A read that is answered changes the answer and takes the move; beside that TIME goes by. -/
theorem hostAnswered_changes (n : Nat) (s : State) :
    hostAnswered n s = { s with
      reply := .value n, inbox := s.inbox.tail, time := (hostAnswered n s).time,
      delays := (hostAnswered n s).delays, ticks := (hostAnswered n s).ticks } :=
  advance_changes_time 0 _

/-- R33: STATUS is BUSY × 8 + RESULT. -/
theorem statusWord_toNat (s : State) : (statusWord s).toNat = (if s.busy then 8 else 0) + s.result.code.toNat := by
  unfold statusWord
  cases s.busy <;> cases s.result <;> rfl

/-- Settles O41: a step in which a read lands is the read of its register, which is answered or faults by its own conditions. -/
theorem hostReadsOfEveryRegister : Obligations.HostReadsOfEveryRegister := by
  unfold Obligations.HostReadsOfEveryRegister
  intro s rest reg hin
  have hstep : step s = hostRead reg s := by simp only [step, nextActivity_of_read (s := s) (reg := reg) (by simp [hin])]
  have hanswered {n m : Nat} (h : n = m) (hs : hostRead reg s = .next (hostAnswered n s)) :
      ∃ t, step s = .next t
        ∧ t = { s with reply := .value m, inbox := rest, time := t.time, delays := t.delays, ticks := t.ticks } := by
    refine ⟨_, hstep.trans hs, ?_⟩
    subst h
    simpa [hin] using hostAnswered_changes n s
  cases reg with
  | status =>
    dsimp only
    split
    next hv => exact hanswered (statusWord_toNat s) (by simp [hostRead, readValue, hv])
    next hv => simp [hstep, hostRead, readValue, hv]
  | busy => exact hanswered (by cases s.busy <;> rfl) rfl
  | cursor =>
    dsimp only
    split_ifs with hb hl
    · simp [hstep, hostRead, hb]
    · exact hanswered rfl (by simp [hostRead, readValue, hb, hl])
    · simp [hstep, hostRead, readValue, hb, hl]
  | bptr =>
    dsimp only
    split
    next hb => simp [hstep, hostRead, hb]
    next hb => exact hanswered rfl (by simp [hostRead, hb])
  | bufByte i =>
    dsimp only
    split_ifs with hb hl
    · simp [hstep, hostRead, hb]
    · exact hanswered rfl (by simp [hostRead, hb, hl])
    · simp [hstep, hostRead, hb, hl]

end Sys2Proof.Machine

/-! ## STATUS, HIST and TIME (spec/10_state.md R33 to R36, spec/60_exceptions.md R180, R187, R190): the proofs of their statements -/

namespace Sys2Proof.Machine

open Sys2Proof.Safety

/-! ### What a step does to STATUS and HIST -/

/-- An event that neither an Issue accepted nor a command finished. -/
def IsPlain (e : Event) : Prop := isIssue e = false ∧ doneCode e = none

theorem IsPrimitive.plain {s : State} {e : Event} (h : IsPrimitive s e) : IsPlain e := by
  cases e with
  | issue | done | refused => cases h
  | _ => exact ⟨rfl, rfl⟩

/-- The events of HIST that STATUS counts: none, those of an Issue, of a Done, or of both, with plain ones before Done. -/
inductive StepStatus (s t : State) : Prop
  /-- STATUS is as before, and BUSY still says whether a command runs. -/
  | keeps (events : List Event) (plain : ∀ e ∈ events, IsPlain e) (keeps : GoesOn t.seq events s t)
      (idle : t.seq = .idle ↔ s.seq = .idle)
  /-- The running command finishes. -/
  | finishes (events : List Event) (plain : ∀ e ∈ events, IsPlain e) (run : s.seq ≠ .idle) (r : ResultCode)
      (finished : Finished r events s t)
  /-- A command is issued. -/
  | issues (issue : Event) (opens : isIssue issue = true) (idle : s.seq = .idle) (run : t.seq ≠ .idle) (busy : t.busy = true)
      (result : t.result = s.result) (valid : t.resultValid = s.resultValid) (hist : t.hist = s.hist ++ [issue])
  /-- A command is issued and finishes at once. -/
  | issuesAndFinishes (issue : Event) (opens : isIssue issue = true) (idle : s.seq = .idle) (r : ResultCode)
      (finished : Finished r [issue] s t)

section Status

variable {s t : State}

/-- Every step but a reset. -/
theorem step_status (h : step s = .next t) (hr : s.inbox.head? ≠ some .reset) : StepStatus s t := by
  rcases step_cases h with ⟨hb, -⟩ | ⟨reg, n, -, rfl⟩ | ⟨word, reasons, -, rfl⟩ | ⟨i, r, -, -, hn, rfl⟩ | ⟨-, rfl⟩
  · exact absurd hb hr
  · exact .keeps [] (by simp) (by simp [GoesOn, hostAnswered]) (by simp [hostAnswered])
  · exact .keeps [.refused word] (by simp [IsPlain, isIssue, doneCode]) (by simp [GoesOn, refuse]) (by simp [refuse])
  · have hidle := (refuseReasons_eq_nil.mp hn).1
    obtain ⟨c, hf⟩ | ⟨hrun, -, hb, hres, hv, hh⟩ := (startOf_cases i (accept (encode i) (useOf i) r s)).status
    · exact .issuesAndFinishes (issueEvent (encode i) (useOf i) r) rfl hidle c (by simpa [Finished] using hf)
    · have hq := ((seq_running_iff _).mp hrun).1
      exact .issues (issueEvent (encode i) (useOf i) r) rfl hidle (by simpa using hq) (by simp [hb]) (by simp [hres])
        (by simp [hv]) (by simp [hh])
  · obtain ⟨events, hprim, ⟨hgo, hidle⟩ | ⟨hrun, c, hf⟩⟩ := (perform_dropPass_cases s).status
    · exact .keeps events (fun e he => (hprim e he).plain) hgo hidle
    · exact .finishes events (fun e he => (hprim e he).plain) ((seq_running_iff _).mp hrun).1 c hf

/-- Settles O35: of the steps but a reset that take BUSY from 1 to 0, each finishes. -/
theorem commandsEndByFinish : Obligations.CommandsEndByFinish := by
  unfold Obligations.CommandsEndByFinish
  intro s t h hr hb hb'
  cases step_status h hr with
  | keeps events _ keeps =>
    obtain ⟨-, hbusy, -⟩ := keeps
    cases hb.symm.trans (hbusy.symm.trans hb')
  | issues _ _ _ _ busy => cases busy.symm.trans hb'
  | finishes events _ _ r finished =>
    obtain ⟨hq, -, hres, hv, hh⟩ := finished
    exact ⟨r, events, hh, hres, hv, hq⟩
  | issuesAndFinishes issue _ _ r finished =>
    obtain ⟨hq, -, hres, hv, hh⟩ := finished
    exact ⟨r, [issue], hh, hres, hv, hq⟩

/-- Settles O46: what a step but a reset does to HIST is to add events. -/
theorem historyOnlyGrows : Obligations.HistoryOnlyGrows := by
  unfold Obligations.HistoryOnlyGrows
  intro s t h hr
  obtain ⟨events, ht, -⟩ := step_addsEvents h hr
  exact ht ▸ List.prefix_append _ _

/-! ### RESULT and the Done events -/

theorem lastDone_append_plain (h : List Event) {events : List Event} (hp : ∀ e ∈ events, IsPlain e) :
    lastDone (h ++ events) = lastDone h := by
  have hnone : events.filterMap doneCode = [] := List.filterMap_eq_nil_iff.mpr fun e he => (hp e he).2
  simp [lastDone, hnone]

theorem lastDone_append_done (h : List Event) (r : ResultCode) : lastDone (h ++ [.done r]) = some r := by
  simp [lastDone, doneCode]

theorem doneCode_of_isIssue {e : Event} (h : isIssue e = true) : doneCode e = none := by
  cases e with
  | issue => rfl
  | _ => cases h

/-- Settles O37: RESULT changes where a Done is recorded, to its code, and a reset clears both. -/
theorem resultIsTheLastDone : Obligations.ResultIsTheLastDone := by
  unfold Obligations.ResultIsTheLastDone
  intro s t hi h
  have hfinished {r : ResultCode} {events : List Event} (hf : Finished r events s t) : ResultInv t := by
    obtain ⟨-, -, hres, hv, hh⟩ := hf
    rw [ResultInv, hh, lastDone_append_done, hres, hv]
    rfl
  by_cases hr : s.inbox.head? = some .reset
  · cases (step_of_reset hr).symm.trans h
    simp [ResultInv, hostReset, State.reset, lastDone]
  cases step_status h hr with
  | keeps events plain keeps =>
    obtain ⟨-, -, hres, hv, hh⟩ := keeps
    rw [ResultInv, hh, lastDone_append_plain _ plain, hres, hv]
    exact hi
  | issues issue opens _ _ _ result valid hist =>
    have hlast : lastDone (s.hist ++ [issue]) = lastDone s.hist := by simp [lastDone, doneCode_of_isIssue opens]
    rw [ResultInv, hist, hlast, result, valid]
    exact hi
  | finishes _ _ _ _ finished => exact hfinished finished
  | issuesAndFinishes _ _ _ _ finished => exact hfinished finished

theorem countP_plain {events : List Event} (hp : ∀ e ∈ events, IsPlain e) :
    events.countP isIssue = 0 ∧ events.countP isDone = 0 := by
  simp only [List.countP_eq_zero]
  exact ⟨fun e he => by simp [(hp e he).1], fun e he => by simp [isDone, (hp e he).2]⟩

theorem countP_issue {issue : Event} (h : isIssue issue = true) :
    [issue].countP isIssue = 1 ∧ [issue].countP isDone = 0 := by
  simp [h, isDone, doneCode_of_isIssue h]

theorem countP_done (r : ResultCode) : [Event.done r].countP isIssue = 0 ∧ [Event.done r].countP isDone = 1 :=
  ⟨rfl, rfl⟩

/-- Settles O38: an Issue sets BUSY, a Done clears it, and an Issue that is done at once leaves it. -/
theorem oneDoneForEachIssue : Obligations.OneDoneForEachIssue := by
  unfold Obligations.OneDoneForEachIssue
  intro s t hi h
  obtain ⟨hcount, hbusy⟩ := hi
  by_cases hr : s.inbox.head? = some .reset
  · cases (step_of_reset hr).symm.trans h
    simp [BalanceInv, hostReset, State.reset]
  have hidle (hq : s.seq = .idle) : s.busy = false := by simpa [hq] using hbusy
  cases step_status h hr with
  | keeps events plain keeps idle =>
    obtain ⟨-, hb, -, -, hh⟩ := keeps
    obtain ⟨hni, hnd⟩ := countP_plain plain
    exact ⟨by simp [hh, hb, hni, hnd, hcount], by rw [hb, hbusy, ne_eq, ne_eq, idle]⟩
  | issues issue opens idle run busy _ _ hist =>
    obtain ⟨hni, hnd⟩ := countP_issue opens
    exact ⟨by simp only [hist, List.countP_append, hni, hnd, busy, hcount, hidle idle]; rfl, by simp [busy, run]⟩
  | finishes events plain run r finished =>
    obtain ⟨hq, hb, -, -, hh⟩ := finished
    obtain ⟨hni, hnd⟩ := countP_plain plain
    obtain ⟨hni', hnd'⟩ := countP_done r
    exact ⟨by simp only [hh, List.countP_append, hni, hnd, hni', hnd', hb, hcount, hbusy.mpr run]; rfl, by simp [hb, hq]⟩
  | issuesAndFinishes issue opens idle r finished =>
    obtain ⟨hq, hb, -, -, hh⟩ := finished
    obtain ⟨hni, hnd⟩ := countP_issue opens
    obtain ⟨hni', hnd'⟩ := countP_done r
    exact ⟨by simp only [hh, List.countP_append, hni, hnd, hni', hnd', hb, hcount, hidle idle]; rfl, by simp [hb, hq]⟩

end Status

/-! ### Results by family -/

section Results

theorem resultOf_ne_exceedRomCapacity (status : TxStatus) : resultOf status ≠ .exceedRomCapacity := by
  cases status <;> exact nofun

/-- R181: no running sequence finishes with ExceedRomCapacity. -/
theorem FinishCause.ne_exceedRomCapacity {q : Seq} {rem : BitVec 17} {r : ResultCode} (h : FinishCause q rem r) :
    r ≠ .exceedRomCapacity := by
  cases h with
  | nothingLeft _ _ hr | timedOut _ hr | wrongCount _ hr => exact hr ▸ nofun
  | chunkFailed _ status _ hr | addressed _ status hr => exact hr ▸ resultOf_ne_exceedRomCapacity status

/-- R132 to R135: the results of a running buffered read. -/
theorem FinishCause.of_inRead {q : Seq} {rem : BitVec 17} {r : ResultCode} (h : FinishCause q rem r)
    (hq : inRead q = true) : r = .success ∨ r = .unexpectedDataLength ∨ r = .timeout := by
  cases h with
  | nothingLeft _ _ hr => exact .inl hr
  | wrongCount _ hr => exact .inr (.inl hr)
  | timedOut _ hr => exact .inr (.inr hr)
  | chunkFailed row | addressed row => cases row ▸ hq

/-- Settles O36: each result by the rows that can give it. -/
theorem resultsByFamily : Obligations.ResultsByFamily := by
  unfold Obligations.ResultsByFamily
  intro s t hi hh h ht
  have hcause (hr : s.seq.running = true) : FinishCause s.seq s.rem t.result := ((step_effect hh hr h).finishCause ht).1
  refine ⟨fun hw => ?_, fun hr => (hcause (running_of_inRead hr)).of_inRead hr, fun ha => ?_⟩
  · have he := step_effect hh (running_of_inWrite hw) h
    have hc := hcause (running_of_inWrite hw)
    refine ⟨hc.ne_exceedRomCapacity, fun hu => ?_, settle_eq_zero_of_timeout hi hw he ht⟩
    cases (hu ▸ hc).of_unexpectedDataLength ▸ hw
  · have hc := hcause (running_of_inAddr ha)
    refine ⟨hc.ne_exceedRomCapacity, fun hu => ?_, fun hto => ?_⟩
    · cases (hu ▸ hc).of_unexpectedDataLength ▸ ha
    · obtain hq | hq := (hto ▸ hc).of_timeout <;> cases hq ▸ ha

end Results

/-! ### The parameters -/

/-- Settles O47: whatever a step does, it sets no parameter. -/
theorem parametersNeverChange : Obligations.ParametersNeverChange := by
  unfold Obligations.ParametersNeverChange
  intro s t h
  rcases step_cases h with ⟨-, rfl⟩ | ⟨reg, n, -, rfl⟩ | ⟨word, reasons, -, rfl⟩ | ⟨i, r, -, -, -, rfl⟩ | ⟨-, rfl⟩
  · simp [hostReset]
  · simp [hostAnswered]
  · simp [refuse]
  · obtain ⟨-, -, -, -, -, -, hparams, -⟩ := (startOf_cases i (accept (encode i) (useOf i) r s)).keepsIssue
    rw [advance_params, hparams]
    rfl
  · obtain ⟨-, -, -, -, -, -, hparams, -⟩ := (perform_dropPass_cases s).keepsOperands
    exact hparams

/-! ### TIME -/

section Time

variable {s t : State}

/-- What R190 says of one step: events are recorded, TIME goes by with them, and every reading is that of TIME. -/
def StepTime (s t : State) : Prop :=
  ∃ events, t.hist.drop s.hist.length = events ∧ Elapsed s events t.time t.delays t.ticks
    ∧ ∀ v, Event.ms v ∈ events → v = clockReading s

/-- A step of the host, of the acceptance or of a refusal: nothing is slept and no reading taken. -/
theorem stepTime_advance {u : State} {events : List Event} (hh : u.hist.drop s.hist.length = events)
    (hslept : slept events = 0) (hms : ∀ v, Event.ms v ∉ events)
    (hu : u.time = s.time ∧ u.delays = s.delays ∧ u.ticks = s.ticks) : StepTime s (advance 0 u) := by
  obtain ⟨ht, hd, hn⟩ := hu
  refine ⟨events, by simpa using hh, ⟨?_, ?_, ?_⟩, fun v hv => absurd hv (hms v)⟩
  · simp [advance_time_eq, nextDelay, ht, hd, hn, hslept]
  · simp [advance_delays, hd]
  · simp [advance_delays, hd, hn]

/-- A primitive, whatever registers are set after it, and a Done where the command finishes. -/
theorem stepTime_of_records {u : State} {e : Event} {rest : List Event} (hu : Records [e] s u) (prim : IsPrimitive s e)
    (hrest : slept rest = 0 ∧ ∀ v, Event.ms v ∉ rest)
    (ht : t.hist = u.hist ++ rest ∧ t.time = u.time ∧ t.delays = u.delays ∧ t.ticks = u.ticks) : StepTime s t := by
  obtain ⟨env, rfl, htime⟩ := hu
  obtain ⟨hslept, hms⟩ := hrest
  obtain ⟨hh, ht, hd, hn⟩ := ht
  refine ⟨e :: rest, by simp [hh, recorded], ?_, fun v hv => ?_⟩
  · have hall : slept (e :: rest) = slept [e] := by
      rw [← List.singleton_append, slept_append, hslept, Nat.add_zero]
    rw [ht, hd, hn, Elapsed, hall]
    exact htime
  · obtain rfl | hv := List.mem_cons.mp hv
    · exact prim
    · exact absurd hv (hms v)

/-- R190 a to d for a step of the sequencer. -/
theorem Performs.stepTime (h : Performs s t) : StepTime s t := by
  have hnil : slept [] = 0 ∧ ∀ v, Event.ms v ∉ [] := ⟨rfl, by simp⟩
  cases h with
  | waits _ hu | faults _ _ hu =>
    obtain ⟨env, rfl, htime⟩ := hu
    exact ⟨[], by simp [recorded], htime, by simp⟩
  | finishes _ prim _ _ hu => exact stepTime_of_records hu prim (rest := [.done _]) ⟨rfl, by simp⟩ ⟨rfl, rfl, rfl, rfl⟩
  | goesOn _ row hu => exact stepTime_of_records hu row.family.1 hnil (by simp)
  | startsWriteChunk _ _ prim hu => exact stepTime_of_records hu prim hnil (by simp)
  | sendsByte _ hu => exact stepTime_of_records hu trivial hnil (by simp)
  | closesChunk _ hu => exact stepTime_of_records hu trivial hnil (by simp [chunkWritten])
  | storesByte _ _ _ hu => exact stepTime_of_records hu trivial hnil (by simp [byteReceived])
  | marksTime _ hu | startsReadChunk _ _ _ hu => exact stepTime_of_records hu rfl hnil (by simp)

theorem Starts.keepsTime {i : Instr} (h : Starts s i t) : t.time = s.time ∧ t.delays = s.delays ∧ t.ticks = s.ticks := by
  cases h <;> exact ⟨rfl, rfl, rfl⟩

/-- R190 a to d for every step. -/
theorem step_stepTime (h : step s = .next t) : StepTime s t := by
  rcases step_cases h with ⟨-, rfl⟩ | ⟨reg, n, -, rfl⟩ | ⟨word, reasons, -, rfl⟩ | ⟨i, r, -, -, -, rfl⟩ | ⟨-, rfl⟩
  · exact stepTime_advance (by simp [State.reset]) slept_nil (by simp) ⟨rfl, rfl, rfl⟩
  · exact stepTime_advance (by simp) slept_nil (by simp) ⟨rfl, rfl, rfl⟩
  · exact stepTime_advance (by simp) (events := [.refused word]) rfl (by simp) ⟨rfl, rfl, rfl⟩
  · have hs := startOf_cases i (accept (encode i) (useOf i) r s)
    obtain ⟨c, -, -, -, -, hh⟩ | ⟨-, -, -, -, -, hh⟩ := hs.status
    · exact stepTime_advance (events := [issueEvent (encode i) (useOf i) r, .done c]) (by simp [hh]) rfl
        (by simp [issueEvent]) hs.keepsTime
    · exact stepTime_advance (events := [issueEvent (encode i) (useOf i) r]) (by simp [hh]) rfl
        (by simp [issueEvent]) hs.keepsTime
  · exact (perform_dropPass_cases s).stepTime

/-- The environment's amounts in an infinite run: the listed ones one by one, and then the free ones one by one (R190, log 2). -/
theorem run_draws {run : Nat → State} (hrun : ∀ n, step (run n) = .next (run (n + 1))) (n : Nat)
    (hd : (run 0).delays.length ≤ n) (k : Nat) :
    (run (n + k)).delays = [] ∧ (run (n + k)).ticks = (run n).ticks + k := by
  have helapsed (m : Nat) : (run (m + 1)).delays = (run m).delays.tail
      ∧ (run (m + 1)).ticks = if (run m).delays = [] then (run m).ticks + 1 else (run m).ticks := by
    obtain ⟨events, -, ⟨-, hd, hn⟩, -⟩ := step_stepTime (hrun m)
    exact ⟨hd, hn⟩
  have hdrop (m : Nat) : (run m).delays = (run 0).delays.drop m := by
    induction m with
    | zero => rfl
    | succ m ih => rw [(helapsed m).1, ih, List.tail_drop]
  have hnone (m : Nat) (hm : n ≤ m) : (run m).delays = [] := by
    rw [hdrop m]
    exact List.drop_of_length_le (hd.trans hm)
  refine ⟨hnone _ (Nat.le_add_right n k), ?_⟩
  induction k with
  | zero => rfl
  | succ k ih => rw [← Nat.add_assoc, (helapsed (n + k)).2, if_pos (hnone _ (Nat.le_add_right n k)), ih, Nat.add_assoc]

/-- R190 e: once the listed amounts are used up, a later free amount above 0 takes TIME above every bound. -/
theorem run_time_unbounded {run : Nat → State} (hrun : ∀ n, step (run n) = .next (run (n + 1))) (bound : Nat) :
    ∃ n, (run 0).delays.length ≤ n ∧ bound ≤ (run n).time := by
  have hnext (n : Nat) : (run n).time + nextDelay (run n) ≤ (run (n + 1)).time := by
    obtain ⟨events, -, ⟨ht, -⟩, -⟩ := step_stepTime (hrun n)
    omega
  have hmono (n k : Nat) : (run n).time ≤ (run (n + k)).time := by
    induction k with
    | zero => exact le_rfl
    | succ k ih => exact ih.trans ((Nat.le_add_right _ _).trans (hnext (n + k)))
  induction bound with
  | zero => exact ⟨_, le_rfl, Nat.zero_le _⟩
  | succ bound ih =>
    obtain ⟨n, hn, hb⟩ := ih
    obtain ⟨m, hm, hpos⟩ := freeDelay_fair (run n).ticks
    obtain ⟨k, rfl⟩ := Nat.exists_eq_add_of_le hm
    obtain ⟨hd, hticks⟩ := run_draws hrun n hn k
    have hdelay : nextDelay (run (n + k)) = Config.freeDelay ((run n).ticks + k) := by simp only [nextDelay, hd, hticks]
    have h1 := hnext (n + k)
    have h2 := hmono n k
    exact ⟨n + k + 1, by omega, by omega⟩

/-- Settles O45: a to d are `step_stepTime`, and e is `run_time_unbounded`. -/
theorem timeObeysTheClockRules : Obligations.TimeObeysTheClockRules := by
  unfold Obligations.TimeObeysTheClockRules
  refine ⟨fun s t h => ?_, fun run hrun bound => ?_⟩
  · obtain ⟨events, hh, ⟨ht, -⟩, hms⟩ := step_stepTime h
    rw [hh]
    exact ⟨ht, fun v hv => ⟨s.time, le_rfl, by omega, hms v hv⟩⟩
  · obtain ⟨n, -, hb⟩ := run_time_unbounded hrun (bound + 1)
    exact ⟨n, hb⟩

end Time
end Sys2Proof.Machine

/-! ## The running sequences (spec/40_write.md R102 to R106, spec/41_addr.md R121, spec/42_read.md R132 to R136): the proofs of their
frames and of the rows of the poll and of the drain loop -/

namespace Sys2Proof.Machine

open Sys2Proof.Safety

/-! ### What each step leaves unchanged -/

/-- What a step of a running sequence leaves unchanged, whatever the command. -/
structure SequenceFrame (s t : State) : Prop where
  operands : KeepsOperands s t
  buf : s.seq ≠ .rByte → t.buf = s.buf
  progress : s.seq ≠ .wEnd → s.seq ≠ .rByte → KeepsProgress s t
  chunk : t.seq ≠ .wBegin → t.seq ≠ .rReq → t.chunk = s.chunk
  cidx : t.seq ≠ .wBegin → t.seq ≠ .rReq → s.seq ≠ .wData → s.seq ≠ .rByte → t.cidx = s.cidx
  tmark : s.seq ≠ .wPmark → s.seq ≠ .rMark → s.seq ≠ .rTmark → t.tmark = s.tmark
  status : t.seq ≠ .idle → KeepsStatus s t

section Frame

variable {s t : State}

/-- A register a step sets is left by the steps of the other rows. -/
theorem Performs.sequenceFrame (h : Performs s t) : SequenceFrame s t := by
  have hstatus (ht : t.seq ≠ .idle) : KeepsStatus s t := by
    obtain ⟨events, -, ⟨⟨-, hb, hres, hv, -⟩, -⟩ | ⟨-, r, hq, -⟩⟩ := h.status
    · exact ⟨hres, hv, hb⟩
    · exact absurd hq ht
  have hops := h.keepsOperands
  cases h with
  | waits _ hu | faults _ _ hu | goesOn _ _ hu =>
    obtain ⟨env, rfl, -⟩ := hu
    exact ⟨hops, fun _ => rfl, fun _ _ => ⟨rfl, rfl, rfl⟩, fun _ _ => rfl, fun _ _ _ _ => rfl, fun _ _ _ => rfl, hstatus⟩
  | sendsByte row hu =>
    obtain ⟨env, rfl, -⟩ := hu
    exact ⟨hops, fun _ => rfl, fun _ _ => ⟨rfl, rfl, rfl⟩, fun _ _ => rfl, fun _ _ hd => absurd row hd, fun _ _ _ => rfl,
      hstatus⟩
  | marksTime row hu =>
    obtain ⟨env, rfl, -⟩ := hu
    refine ⟨hops, fun _ => rfl, fun _ _ => ⟨rfl, rfl, rfl⟩, fun _ _ => rfl, fun _ _ _ _ => rfl, fun hw hr hm => ?_, hstatus⟩
    obtain ⟨hq, -⟩ | ⟨hq | ⟨hq, -⟩, -⟩ := row
    exacts [absurd hq hw, absurd hq hr, absurd hq hm]
  | closesChunk row hu =>
    obtain ⟨env, rfl, -⟩ := hu
    exact ⟨hops, fun _ => rfl, fun he => absurd row he, fun _ _ => rfl, fun _ _ _ _ => rfl, fun _ _ _ => rfl, hstatus⟩
  | storesByte row bound b hu =>
    obtain ⟨env, rfl, -⟩ := hu
    exact ⟨hops, absurd row, fun _ hb => absurd row hb, fun _ _ => rfl, fun _ _ _ hb => absurd row hb, fun _ _ _ => rfl,
      hstatus⟩
  | startsWriteChunk row left prim hu =>
    obtain ⟨env, rfl, -⟩ := hu
    exact ⟨hops, fun _ => rfl, fun _ _ => ⟨rfl, rfl, rfl⟩, fun hw => absurd rfl hw, fun hw => absurd rfl hw,
      fun _ _ _ => rfl, hstatus⟩
  | startsReadChunk row full left hu =>
    obtain ⟨env, rfl, -⟩ := hu
    exact ⟨hops, fun _ => rfl, fun _ _ => ⟨rfl, rfl, rfl⟩, fun _ hr => absurd rfl hr, fun _ hr => absurd rfl hr,
      fun _ _ hm => absurd row hm, hstatus⟩
  | finishes cause prim tm mark hu =>
    obtain ⟨env, rfl, -⟩ := hu
    exact ⟨hops, fun _ => rfl, fun _ _ => ⟨rfl, rfl, rfl⟩, fun _ _ => rfl, fun _ _ _ _ => rfl, fun _ _ hm => mark hm,
      hstatus⟩

/-- R53: R_BYTE changes the byte at BPTR only. -/
theorem Performs.read_buf (h : Performs s t) (hwf : Memory.wf s.buf = true) (a : Nat)
    (ha : s.seq ≠ .rByte ∨ a ≠ s.bptr.toNat) : Memory.read t.buf a = Memory.read s.buf a := by
  cases h with
  | storesByte row bound b hu =>
    obtain ⟨env, rfl, -⟩ := hu
    exact (Memory.read_write _ _ _ _ hwf).trans (if_neg (ha.resolve_left (absurd row)))
  | waits _ hu | faults _ _ hu | goesOn _ _ hu | sendsByte _ hu | marksTime _ hu | closesChunk _ hu
  | startsWriteChunk _ _ _ hu | startsReadChunk _ _ _ hu | finishes _ _ _ _ hu =>
    obtain ⟨env, rfl, -⟩ := hu
    rfl

/-- Where no Issue lands, exec of any command is a step of the sequencer. -/
theorem performs_of_exec {i : Instr} (hf : fetch s = none) (h : exec i s = .next t) : Performs s t := by
  rw [exec_eq, command_running hf] at h
  exact sequencerStep_cases h ▸ perform_dropPass_cases s

/-- R26: a read chunk starts in a buffered read only, and a data chunk in a write only. -/
theorem Performs.startsChunk (h : Performs s t) :
    (t.seq = .rReq → inRead s.seq = true) ∧ (t.seq = .wBegin → inWrite s.seq = true) := by
  obtain hr | ⟨-, hw, hrd, -⟩ := h.family
  · exact ⟨fun hq => by simp [hq, Seq.running, Seq.isFault] at hr, fun hq => by simp [hq, Seq.running, Seq.isFault] at hr⟩
  · exact ⟨fun hq => hrd ▸ hq ▸ rfl, fun hq => hw ▸ hq ▸ rfl⟩

theorem inRead_eq_false_of_inWrite {q : Seq} (h : inWrite q = true) : inRead q = false := by
  cases q with
  | rReq | rMark | rAvail | rByte | rTmark | rTchk => cases h
  | _ => rfl

theorem bufLen_of_keepsOperands (h : KeepsOperands s t) : t.bufLen = s.bufLen := by
  obtain ⟨-, -, -, -, -, hlen, -⟩ := h
  exact hlen

/-- Settles O26: the frame of every sequence, in the states of a write. -/
theorem writeSequenceFrame : Obligations.WriteSequenceFrame := by
  unfold Obligations.WriteSequenceFrame
  intro ty bus s t hf hw h
  have hp := performs_of_exec hf h
  have hframe := hp.sequenceFrame
  have hne {q : Seq} (hq : inWrite q = false) : s.seq ≠ q := fun h => by simp [h, hq] at hw
  have hreq : t.seq ≠ .rReq := fun hq => by
    cases (inRead_eq_false_of_inWrite hw).symm.trans (hp.startsChunk.1 hq)
  refine ⟨hframe.operands, ⟨bufLen_of_keepsOperands hframe.operands, fun a => by rw [hframe.buf (hne rfl)]⟩,
    fun he => hframe.progress he (hne rfl), fun hb => ⟨hframe.chunk hb hreq, fun hd => ?_⟩,
    fun hm => hframe.tmark hm (hne rfl) (hne rfl), hframe.status⟩
  exact hframe.cidx hb hreq hd (hne rfl)

/-- Settles O28: the frame of every sequence, in the states of an address transaction. -/
theorem addrSequenceFrame : Obligations.AddrSequenceFrame := by
  unfold Obligations.AddrSequenceFrame
  intro ty bus s t hf ha h
  have hp : Performs s t := h.elim (performs_of_exec hf) (performs_of_exec hf)
  have hframe := hp.sequenceFrame
  have hne {q : Seq} (hq : inAddr q = false) : s.seq ≠ q := fun h => by simp [h, hq] at ha
  have hother : inRead s.seq = false ∧ inWrite s.seq = false := by
    cases hq : s.seq with
    | aBegin | aAhi | aAlo | aEnd => exact ⟨rfl, rfl⟩
    | _ => cases hq ▸ ha
  have hreq : t.seq ≠ .rReq := fun hq => by cases hother.1.symm.trans (hp.startsChunk.1 hq)
  have hbegin : t.seq ≠ .wBegin := fun hq => by cases hother.2.symm.trans (hp.startsChunk.2 hq)
  refine ⟨hframe.operands, ⟨bufLen_of_keepsOperands hframe.operands, fun a => by rw [hframe.buf (hne rfl)]⟩,
    hframe.progress (hne rfl) (hne rfl), ⟨hframe.chunk hbegin hreq, ?_, ?_⟩, hframe.status⟩
  · exact hframe.cidx hbegin hreq (hne rfl) (hne rfl)
  · exact hframe.tmark (hne rfl) (hne rfl) (hne rfl)

/-- Settles O31: the frame of every sequence, in the states of a buffered read. -/
theorem readSequenceFrame : Obligations.ReadSequenceFrame := by
  unfold Obligations.ReadSequenceFrame
  intro ty bus s t hb hf hr h
  have hp := performs_of_exec hf h
  have hframe := hp.sequenceFrame
  have hne {q : Seq} (hq : inRead q = false) : s.seq ≠ q := fun h => by simp [h, hq] at hr
  have hbegin : t.seq ≠ .wBegin := fun hq => by
    cases (inRead_eq_false_of_inWrite (hp.startsChunk.2 hq)).symm.trans hr
  exact ⟨hframe.operands, hp.read_buf hb.1,
    fun hbyte => ⟨hframe.progress (hne rfl) hbyte, fun hq => hframe.cidx hbegin hq (hne rfl) hbyte⟩,
    hframe.chunk hbegin, fun ⟨hm, hm'⟩ => hframe.tmark (hne rfl) hm hm', hframe.status⟩

end Frame

/-! ### The rows of the poll (R105) -/

/-- R105: the step of P_END with its close status. -/
theorem step_of_pEnd {s : State} {status : TxStatus} (hh : hostQuiet s = true) (hq : s.seq = .pEnd)
    (hst : TxStatus.ofRaw (nextAnswer s) = some status) :
    let u := advance 0 (record (.endTx status) (dropAnswer (dropPass s)))
    step s = .next (if status = .ok then nextWriteChunk u else { u with seq := .wPchk }) := by
  rw [step_of_hostQuiet hh (by rw [hq]; rfl)]
  simp only [perform, dropPass_seq, hq, stepPEnd]
  rw [txEnd_of_status _ (by simpa using hst)]

/-- What ClkMillis returns in a step: TIME as it is before the step (log 2). -/
theorem clockReading_dropPass (s : State) : clockReading (dropPass s) = BitVec.ofNat 32 s.time := by
  simp [clockReading]

/-- R105, R134: the clock check, strict, on the 32-bit difference. -/
theorem timedOut_dropPass (limit : Nat) (s : State) :
    timedOut limit (clockReading (dropPass s)) (dropPass s) = true ↔ limit < (BitVec.ofNat 32 s.time - s.tmark).toNat := by
  simp [timedOut, elapsed, clockReading_dropPass]

/-- R105: the step of W_PCHK. -/
theorem step_of_wPchk {s : State} (hh : hostQuiet s = true) (hq : s.seq = .wPchk) :
    step s = .next
      (if 20 < (BitVec.ofNat 32 s.time - s.tmark).toNat then finish .timeout (clkMillis (dropPass s))
        else { clkMillis (dropPass s) with seq := .wPsleep }) := by
  rw [step_of_hostQuiet hh (by rw [hq]; rfl)]
  simp only [perform, dropPass_seq, hq, stepWPchk, timedOut_dropPass, Config.POLL_TIMEOUT]

/-- R134, R135: the step of R_TCHK. -/
theorem step_of_rTchk {s : State} (hh : hostQuiet s = true) (hq : s.seq = .rTchk) :
    step s = .next
      (if 20 < (BitVec.ofNat 32 s.time - s.tmark).toNat then finish .timeout (clkMillis (dropPass s))
        else { clkMillis (dropPass s) with seq := .rAvail }) := by
  rw [step_of_hostQuiet hh (by rw [hq]; rfl)]
  simp only [perform, dropPass_seq, hq, stepRTchk, timedOut_dropPass, Config.READ_TIMEOUT]

/-- Settles O25: each row is the primitive of its state; P_END by its close status, W_PCHK by the time elapsed. -/
theorem acknowledgePolling : Obligations.AcknowledgePolling := by
  unfold Obligations.AcknowledgePolling
  intro s hh
  have hstep {q : Seq} (hq : s.seq = q) (hr : q.running = true) : step s = .next (perform (dropPass s)) :=
    step_of_hostQuiet hh (hq ▸ hr)
  refine ⟨fun hq => ⟨_, hstep hq rfl, ?_⟩, fun hq => ⟨_, hstep hq rfl, ?_⟩, fun hq => ⟨_, hstep hq rfl, ?_⟩,
    fun hq => ⟨_, hstep hq rfl, ?_⟩, fun hq => ⟨_, hstep hq rfl, ?_⟩,
    fun hq status hst => ⟨_, step_of_pEnd hh hq hst, ?_⟩, fun hq => ⟨_, step_of_wPchk hh hq, ?_⟩⟩
  · simp [perform, hq, stepWPmark, GoesOn, clockReading_dropPass]
  · have htime := clkSleep_time Config.POLL_INTERVAL (dropPass s)
    simp only [dropPass_time] at htime
    simpa [perform, hq, stepWPsleep, GoesOn, Config.POLL_INTERVAL] using htime
  · simp [perform, hq, stepPBegin, GoesOn, busOf]
  · simp [perform, hq, stepPAhi, GoesOn, offsetHigh]
  · simp [perform, hq, stepPAlo, GoesOn, offsetLow]
  · have hgo : GoesOn .pEnd [.endTx status] s (advance 0 (record (.endTx status) (dropAnswer (dropPass s)))) := by
      simp [GoesOn, hq]
    split
    next hok =>
      subst hok
      simpa using nextWriteChunk_continues hgo
    next => simp [GoesOn]
  · split
    · simp [Finished, clockReading_dropPass]
    · simp [GoesOn, clockReading_dropPass]

/-! ### The rows of the drain loop (R134) -/

/-- NextReadChunk goes on as R132 says from the state the step has come to. -/
theorem nextReadChunk_continues {q : Seq} {events : List Event} {s u : State} (h : GoesOn q events s u)
    (hp : u.params = s.params) : ReadContinues u.rem.toNat events s (nextReadChunk u) := by
  obtain ⟨-, hb, hr, hv, hh⟩ := h
  unfold ReadContinues
  rcases nextReadChunk_cases u with ⟨h0, hn⟩ | ⟨h0, hn⟩ <;> rw [hn]
  · rw [if_pos (rem_toNat_eq_zero.mpr h0)]
    simp [Finished, hh]
  · rw [if_neg (mt rem_toNat_eq_zero.mp h0)]
    exact ⟨⟨rfl, hb, hr, hv, hh⟩, hp ▸ readChunk_toNat u, rfl⟩

/-- RxAvailable and RxRead with a raw answer of their types (R12). -/
theorem rxAvailable_of_bit {s : State} (k : Bool → State → State) (h : nextAnswer s ≤ 1) :
    rxAvailable s k = k (nextAnswer s == 1) (advance 0 (record (.avail (nextAnswer s == 1)) (dropAnswer s))) :=
  if_pos h

theorem rxRead_of_byte {s : State} (k : Byte → State → State) (h : nextAnswer s ≤ 255) :
    rxRead s k = k (BitVec.ofNat 8 (nextAnswer s))
      (advance 0 (record (.rd (BitVec.ofNat 8 (nextAnswer s))) (dropAnswer s))) :=
  if_pos h

/-- R134: R_BYTE within the buffer, with a byte. -/
theorem perform_of_rByte {s : State} (hq : s.seq = .rByte) (hb : s.bptr.toNat < s.bufLen) (hn : nextAnswer s ≤ 255) :
    perform s = byteReceived (BitVec.ofNat 8 (nextAnswer s))
      (advance 0 (record (.rd (BitVec.ofNat 8 (nextAnswer s))) (dropAnswer s))) := by
  simp only [perform, hq, stepRByte]
  rw [if_neg (Nat.not_le.mpr hb), rxRead_of_byte _ hn]

/-- R134: the step of R_BYTE within the buffer, with a byte: its event, and what the byte changes. -/
theorem step_of_rByte {s : State} (hh : hostQuiet s = true) (hq : s.seq = .rByte) (hb : s.bptr.toNat < s.bufLen)
    (hn : nextAnswer s ≤ 255) :
    ∃ u, step s = .next (byteReceived (BitVec.ofNat 8 (nextAnswer s)) u)
      ∧ Records [.rd (BitVec.ofNat 8 (nextAnswer s))] s u := by
  refine ⟨_, ?_, (prepared_dropPass s).answered (.rd (BitVec.ofNat 8 (nextAnswer s))) rfl⟩
  rw [step_of_hostQuiet hh (by rw [hq]; rfl), perform_of_rByte (by simpa using hq) (by simpa using hb) (by simpa using hn),
    nextAnswer_dropPass]

/-- R134: the step of R_TMARK. -/
theorem step_of_rTmark {s : State} (hh : hostQuiet s = true) (hq : s.seq = .rTmark) :
    step s = .next
      (if s.cidx = s.chunk then nextReadChunk (markTime (dropPass s))
        else { markTime (dropPass s) with seq := .rAvail }) := by
  rw [step_of_hostQuiet hh (by rw [hq]; rfl)]
  simp only [perform, dropPass_seq, hq, stepRTmark, dropPass_cidx, dropPass_chunk]

theorem nextReadChunk_tmark (s : State) : (nextReadChunk s).tmark = s.tmark := by
  unfold nextReadChunk
  split <;> rfl

/-- Settles O30: each row is the primitive of its state; R_BYTE by its bound, R_TMARK by its chunk, R_TCHK by the time elapsed. -/
theorem drainLoop : Obligations.DrainLoop := by
  unfold Obligations.DrainLoop
  intro s hi hh
  have hstep {q : Seq} (hq : s.seq = q) (hr : q.running = true) : step s = .next (perform (dropPass s)) :=
    step_of_hostQuiet hh (hq ▸ hr)
  refine ⟨fun hq => ⟨_, hstep hq rfl, ?_⟩, fun hq hn => ⟨_, hstep hq rfl, ?_⟩, fun hq hb hn => ?_,
    fun hq hb => ⟨_, hstep hq rfl, ?_⟩, fun hq => ⟨_, step_of_rTmark hh hq, ?_⟩, fun hq => ⟨_, step_of_rTchk hh hq, ?_⟩⟩
  · simp [perform, hq, stepRMark, GoesOn, clockReading_dropPass]
  · simp only [perform, dropPass_seq, hq, stepRAvail]
    rw [rxAvailable_of_bit _ (by simpa using hn)]
    simp [GoesOn]
  · obtain ⟨u, hs, env, rfl, -⟩ := step_of_rByte hh hq hb hn
    obtain ⟨⟨hwf, -⟩, -, -, -, -, -, hread, -⟩ := hi
    obtain ⟨hp, hc⟩ := hread (by rw [hq]; rfl)
    refine ⟨_, hs, ⟨rfl, rfl, rfl, rfl, rfl⟩, ?_, byteReceived_progress (s := recorded s _ env) _ hq hp hc⟩
    exact (Memory.read_write _ _ _ _ hwf).trans (if_pos rfl)
  · rw [perform_of_bufOobCause ((bufOobCause_dropPass s).mpr (.inr ⟨hq, hb⟩))]
    simp [GoesOn]
  · have hgo : GoesOn .rTmark [.ms (BitVec.ofNat 32 s.time)] s (markTime (dropPass s)) := by
      simp [GoesOn, hq, clockReading_dropPass]
    split
    next => exact ⟨by simp [nextReadChunk_tmark, clockReading_dropPass], by simpa using nextReadChunk_continues hgo (by simp)⟩
    next => simp [GoesOn, clockReading_dropPass]
  · split
    · simp [Finished, clockReading_dropPass]
    · simp [GoesOn, clockReading_dropPass]

/-! ### The bytes of an element (R159) -/

/-- BUS of the command in CMD (R74). -/
theorem busOf_of_cmd {s : State} {i : Instr} (h : s.cmd = encode i) : busOf s = i.bus := by
  rw [busOf, h]
  exact Laws.EncodeDecode.busField_append i.bus i.low

/-- R102: the step of W_DATA within the buffer. -/
theorem exec_of_wData {s : State} (i : Instr) (hh : hostQuiet s = true) (hq : s.seq = .wData)
    (hb : s.bptr.toNat + s.cidx.toNat < s.bufLen) :
    ∃ t, exec i s = .next t ∧ t.hist = s.hist ++ [.wr (Memory.read s.buf (s.bptr.toNat + s.cidx.toNat))] := by
  refine ⟨_, exec_of_hostQuiet hh (by rw [hq]; rfl) i, ?_⟩
  simp [perform, hq, stepWData, writeIndex, Nat.not_le.mpr hb]

theorem cursorPlus_eq (s : State) (k : Nat) : cursorPlus s k = s.cursor + BitVec.ofNat 16 k := by
  simp [cursorPlus, BitVec.ofNat_add]

/-- C0 is the offset of index 0: n above the offset of index b lies that of b + n (R21). -/
theorem offset_add {c c0 : Offset} {b : BitVec 17} (h : c = c0 + b.setWidth 16) (n : Nat) :
    c + BitVec.ofNat 16 n = c0 + BitVec.ofNat 16 (b.toNat + n) := by
  subst h
  bv_omega

/-- Settles O19: the transaction so far is that of TransactionInv, and W_DATA adds the byte at BPTR + CIDX to it. -/
theorem typedWriteSendsElementBytes : Obligations.TypedWriteSendsElementBytes := by
  unfold Obligations.TypedWriteSendsElementBytes
  intro ty bus s c0 k j hi ht hh hcmd hq hc hindex hb i
  have hindex : s.bptr.toNat + s.cidx.toNat = i := ((elementIndexes_getElem? _ _ _ _ _).mp hindex).2
  have hbus : busOf s = bus := (busOf_of_cmd hcmd).trans (bus_write ty bus)
  obtain ⟨t, hs, hhist⟩ := exec_of_wData (.write ty bus) hh hq hb
  rw [hindex] at hhist
  refine ⟨t, hs, hhist, s.cursor,
    (List.range s.cidx.toNat).map (fun j => Memory.read s.buf (s.bptr.toNat + j)), ?_, ?_⟩
  · obtain ⟨-, -, -, hsent⟩ := ht
    rw [hhist, busEvents_append, List.map_map, ← hbus]
    exact suffix_concat _ (hsent (.inl hq))
  · rw [List.length_map, List.length_range, ← hindex]
    exact offset_add hc _

/-- Settles O20: the step of R_BYTE, whose index is BPTR. -/
theorem typedReadStoresElementBytes : Obligations.TypedReadStoresElementBytes := by
  unfold Obligations.TypedReadStoresElementBytes
  intro ty bus s c0 k j hi hh hcmd hq hc hindex hb hn i b
  have hindex : s.bptr.toNat = i := ((elementIndexes_getElem? _ _ _ _ _).mp hindex).2
  have hr : s.seq.running = true := by rw [hq]; rfl
  obtain ⟨u, hs, env, rfl, -⟩ := step_of_rByte hh hq hb hn
  obtain ⟨⟨hwf, -⟩, -, -, -, -, -, hread, -⟩ := hi
  obtain ⟨hp, hrc⟩ := hread (by rw [hq]; rfl)
  obtain ⟨hbptr, -⟩ := byteReceived_progress (s := recorded s [.rd b] env) b hq hp hrc
  refine ⟨_, (exec_of_hostQuiet hh hr _).trans ((step_of_hostQuiet hh hr).symm.trans hs), rfl, fun a => ?_, ?_, ?_, ?_⟩
  · rw [← hindex]
    exact Memory.read_write _ _ _ _ hwf
  · rw [hc, ← hindex]
    bv_omega
  · rw [← hindex, ← offset_add hc 1]
    exact cursorPlus_eq s 1
  · rw [← hindex]
    exact hbptr

end Sys2Proof.Machine

/-! ## The issue step (spec/60_exceptions.md R185, R186, spec/40_write.md R100, spec/41_addr.md R120, spec/42_read.md R130):
the proofs of its statements -/

namespace Sys2Proof.Machine

open Sys2Proof.Safety

/-! ### An Issue that lands -/

section Issue

variable {s t : State} {r : IssueReq} {i : Instr}

/-- R186: an Issue that lands is accepted where nothing refuses it. -/
theorem accepted_iff {use : BufferUse} (hf : fetch s = some r) : Accepted use r s ↔ refuseReasons true use r s = [] := by
  simp only [Accepted, hf, true_and, refuseReasons_eq_nil]

/-- R185: the step of an accepted Issue. -/
theorem exec_of_accepted (h : Accepted (useOf i) r s) :
    exec i s = .next (advance 0 (startOf i (accept (encode i) (useOf i) r s))) := by
  rw [exec_eq, command_accepted h.1 ((accepted_iff h.1).mp h)]

/-- R186: the step of an Issue that is not accepted. -/
theorem exec_of_not_accepted (hf : fetch s = some r) (h : ¬ Accepted (useOf i) r s) :
    exec i s = .next (refuse (encode i) (refuseReasons true (useOf i) r s) s) := by
  rw [exec_eq, command_refused hf (mt (accepted_iff hf).mpr h)]

/-- A command that finishes in its issue step, seen from before the Issue. -/
theorem finished_of_accept {word : CmdWord} {use : BufferUse} {c : ResultCode} (h : Finished c [] (accept word use r s) t) :
    Finished c [issueEvent word use r] s (advance 0 t) := by
  obtain ⟨hq, hb, hres, hv, hh⟩ := h
  exact ⟨by simpa using hq, by simpa using hb, by simpa using hres, by simpa using hv, by simpa using hh⟩

/-- Settles O9: the issue pseudocode leaves what the acceptance set, and runs or has finished. -/
theorem acceptedIssueLatchesOperands : Obligations.AcceptedIssueLatchesOperands := by
  unfold Obligations.AcceptedIssueLatchesOperands
  intro i s r hacc
  have hs := startOf_cases i (accept (encode i) (useOf i) r s)
  obtain ⟨-, -, hlen⟩ := bufferInv_accept (encode i) (useOf i) r s
  obtain ⟨hcmd, hloaded, hl, hsettle, hbuf, hbufLen, -⟩ := hs.keepsIssue
  refine ⟨_, exec_of_accepted hacc, by simpa using hcmd, by simpa using hloaded, by simpa using hl, by simpa using hsettle,
    by simpa using hbufLen, by simpa [hbufLen] using hlen, fun a => ?_, ?_, ?_⟩
  · rw [advance_buf, hbuf]
    exact Memory.read_ofBytes _ a
  · obtain ⟨c, hq, -⟩ | ⟨-, -, hb, -⟩ := hs.status
    · exact .inr (by simpa using hq)
    · exact .inl (by simpa using hb)
  · obtain ⟨c, -, -, -, -, hh⟩ | ⟨-, -, -, -, -, hh⟩ := hs.status <;> rw [advance_hist, hh]
    · simp [issueEvent]
    · simp [issueEvent]

/-- Settles O11: a step that answers a refusal answers the reasons found, which are exactly those with a cause. -/
theorem refusalNamesItsReasons : Obligations.RefusalNamesItsReasons := by
  unfold Obligations.RefusalNamesItsReasons
  intro s r t hf h reasons hreply
  rcases reply_of_fetch hf h with ⟨i, -, rfl⟩ | ht
  · obtain ⟨-, -, -, -, -, -, -, -, -, -, hr, -⟩ := (startOf_cases i (accept (encode i) (useOf i) r s)).keepsIssue
    rw [advance_reply, hr] at hreply
    cases hreply
  · cases ht.symm.trans hreply
    exact ⟨mem_issueReasons r s .reservedEncoding, mem_issueReasons r s .busy, mem_issueReasons r s .faulted,
      mem_issueReasons r s .noCursor, mem_issueReasons r s .noBuffer⟩

/-- Settles O16: the acceptance sets BPTR to 0, and no issue pseudocode sets it to anything else. -/
theorem rejectedRangeLeavesBptrZero : Obligations.RejectedRangeLeavesBptrZero := by
  unfold Obligations.RejectedRangeLeavesBptrZero
  intro i s t r hacc h _ _
  cases (exec_of_accepted hacc).symm.trans h
  obtain ⟨-, -, -, -, -, -, -, -, -, -, -, hbptr⟩ := (startOf_cases i (accept (encode i) (useOf i) r s)).keepsIssue
  simpa using hbptr rfl

/-- What the pseudocode of a command without a transfer leaves. -/
theorem Starts.keepsRegisters (h : Starts s i t) :
    (useOf i ≠ .needed → t.rem = s.rem ∧ t.chunk = s.chunk ∧ t.cidx = s.cidx)
      ∧ (useOf i = .unused → t.bytelen = s.bytelen) := by
  cases h with
  | rejected ty ranged => exact ⟨fun _ => ⟨rfl, rfl, rfl⟩, fun hu => absurd hu ranged⟩
  | nothing ty buffered => exact ⟨fun hn => absurd buffered hn, fun hu => by cases buffered.symm.trans hu⟩
  | write ty bus => exact ⟨fun hn => absurd (useOf_write ty bus) hn, fun hu => by cases (useOf_write ty bus).symm.trans hu⟩
  | read ty bus => exact ⟨fun hn => absurd (useOf_read ty bus) hn, fun hu => by cases (useOf_read ty bus).symm.trans hu⟩
  | seek ty bus => exact ⟨fun _ => ⟨rfl, rfl, rfl⟩, fun hu => by cases (useOf_seek ty bus).symm.trans hu⟩
  | addr => exact ⟨fun _ => ⟨rfl, rfl, rfl⟩, fun _ => rfl⟩

/-- Settles O17: a refusal changes no register, and an accepted command's pseudocode only those its rules write. -/
theorem issueFrame : Obligations.IssueFrame := by
  unfold Obligations.IssueFrame
  intro i s t r hf h
  by_cases hacc : Accepted (useOf i) r s
  · cases (exec_of_accepted hacc).symm.trans h
    have hs := startOf_cases i (accept (encode i) (useOf i) r s)
    obtain ⟨-, -, -, -, -, -, hparams, htmark, hanswers, hinbox, -⟩ := hs.keepsIssue
    obtain ⟨hregs, hbytelen⟩ := hs.keepsRegisters
    refine ⟨by simpa using hparams, by simpa using htmark, by simpa using hanswers, by simpa using hinbox,
      by simpa using hregs, by simpa using hbytelen, fun hb => ?_, fun hn => absurd hacc hn⟩
    obtain ⟨c, -, hb', -⟩ | ⟨-, -, -, hres, hv, -⟩ := hs.status
    · simp [hb'] at hb
    · exact ⟨by simpa using hres, by simpa using hv⟩
  · cases (exec_of_not_accepted hf hacc).symm.trans h
    simp [refuse, KeepsOperands, KeepsProgress, KeepsChunk, KeepsStatus, KeepsBuffer]

end Issue

/-! ### The issue step of each family -/

section Families

variable (ty : ElemType) (s : State)

theorem nextWriteChunk_keeps (u : State) :
    (nextWriteChunk u).bytelen = u.bytelen ∧ (nextWriteChunk u).cursor = u.cursor ∧ (nextWriteChunk u).rem = u.rem
      ∧ (nextWriteChunk u).bptr = u.bptr := by
  rcases nextWriteChunk_cases u with ⟨-, h⟩ | ⟨-, h⟩ <;> rw [h] <;> exact ⟨rfl, rfl, rfl, rfl⟩

theorem nextReadChunk_keeps (u : State) :
    (nextReadChunk u).bytelen = u.bytelen ∧ (nextReadChunk u).cursor = u.cursor ∧ (nextReadChunk u).rem = u.rem
      ∧ (nextReadChunk u).bptr = u.bptr := by
  rcases nextReadChunk_cases u with ⟨-, h⟩ | ⟨-, h⟩ <;> rw [h] <;> exact ⟨rfl, rfl, rfl, rfl⟩

/-- R100: BYTELEN and CURSOR after the pseudocode of WRITE.T. -/
theorem startWrite_range : (startWrite ty s).bytelen = byteLength s.params ty s.len ∧ (startWrite ty s).cursor = s.cursor := by
  rw [startWrite_eq]
  split
  · exact ⟨rfl, rfl⟩
  · obtain ⟨hlen, hcursor, -⟩ := nextWriteChunk_keeps (loadRange ty s)
    exact ⟨hlen, hcursor⟩

/-- R130: BYTELEN and CURSOR after the pseudocode of READ.T. -/
theorem startRead_range : (startRead ty s).bytelen = byteLength s.params ty s.len ∧ (startRead ty s).cursor = s.cursor := by
  rw [startRead_eq]
  split
  · exact ⟨rfl, rfl⟩
  · obtain ⟨hlen, hcursor, -⟩ := nextReadChunk_keeps (loadRange ty s)
    exact ⟨hlen, hcursor⟩

theorem loadRange_goesOn : GoesOn s.seq [] s (loadRange ty s) :=
  ⟨rfl, rfl, rfl, rfl, (List.append_nil _).symm⟩

/-- What the pseudocode of a write or buffered read of n bytes leaves: it finishes, or goes on in q with a first chunk of k
bytes. -/
def RangeStarts (q : Seq) (k n : Nat) (s t : State) : Prop :=
  if Config.CAPACITY < s.cursor.toNat + n then Finished .exceedRomCapacity [] s t
  else
    t.rem.toNat = n ∧ t.bptr = 0#17
      ∧ if n = 0 then Finished .success [] s t else GoesOn q [] s t ∧ t.chunk.toNat = k ∧ t.cidx.toNat = 0

/-- R100: the pseudocode of WRITE.T. -/
theorem startWrite_starts :
    RangeStarts .wBegin (min (Config.PAGE - s.cursor.toNat % Config.PAGE) (lengthOf ty s)) (lengthOf ty s) s
      (startWrite ty s) := by
  rw [startWrite_eq, RangeStarts]
  split
  next => simp [Finished, loadByteLength]
  next h =>
    obtain ⟨-, -, hrem, hbptr⟩ := nextWriteChunk_keeps (loadRange ty s)
    have hlen := loadRange_rem ty s (Nat.le_of_not_lt h)
    exact ⟨hrem ▸ hlen, hbptr, hlen ▸ nextWriteChunk_continues (loadRange_goesOn ty s)⟩

/-- R130: the pseudocode of READ.T. -/
theorem startRead_starts :
    RangeStarts .rReq (min s.params.readCap (lengthOf ty s)) (lengthOf ty s) s (startRead ty s) := by
  rw [startRead_eq, RangeStarts]
  split
  next => simp [Finished, loadByteLength]
  next h =>
    obtain ⟨-, -, hrem, hbptr⟩ := nextReadChunk_keeps (loadRange ty s)
    have hlen := loadRange_rem ty s (Nat.le_of_not_lt h)
    exact ⟨hrem ▸ hlen, hbptr, hlen ▸ nextReadChunk_continues (loadRange_goesOn ty s) rfl⟩

theorem startSeek_of_above (h : Config.CAPACITY < s.cursor.toNat + lengthOf ty s) :
    startSeek ty s = finish .exceedRomCapacity (loadByteLength ty s) := by
  rw [startSeek_eq, if_pos h]

theorem startSeek_of_fits (h : s.cursor.toNat + lengthOf ty s ≤ Config.CAPACITY) :
    startSeek ty s
      = { loadByteLength ty s with bptr := 0#17, cursor := cursorPlus s (lengthOf ty s), seq := .aBegin } := by
  rw [startSeek_eq, if_neg (Nat.not_lt.mpr h)]

/-- LEN × W(T) of the Issue (R30). -/
theorem lengthOf_accept (word : CmdWord) (use : BufferUse) (r : IssueReq) :
    lengthOf ty (accept word use r s) = issuedLength ty r s := rfl

end Families

/-- The outcome of the issue step of a write or buffered read of n bytes: it finishes with its one event, or goes on in q with a
first chunk of k bytes. -/
def RangeIssued (q : Seq) (k n : Nat) (issued : Event) (r : IssueReq) (s t : State) : Prop :=
  if Config.CAPACITY < (issuedCursor r s).toNat + n then Finished .exceedRomCapacity [issued] s t
  else if n = 0 then Finished .success [issued] s t ∧ t.bptr = 0#17
  else
    t.rem.toNat = n ∧ t.bptr = 0#17 ∧ t.seq = q ∧ t.busy = true ∧ t.hist = s.hist ++ [issued]
      ∧ t.chunk.toNat = k ∧ t.cidx.toNat = 0

section RangeIssue

variable {r : IssueReq} {q : Seq} {k n : Nat} {s : State}

/-- The pseudocode of a write or buffered read, seen from before the Issue. -/
theorem rangeIssued_of_starts {word : CmdWord} {use : BufferUse} {t : State}
    (h : RangeStarts q k n (accept word use r s) t) : RangeIssued q k n (issueEvent word use r) r s (advance 0 t) := by
  rw [RangeStarts, accept_cursor] at h
  unfold RangeIssued
  split at h
  next hover => exact if_pos hover ▸ finished_of_accept h
  next hfits =>
    obtain ⟨hrem, hbptr, hrest⟩ := h
    rw [if_neg hfits]
    split at hrest
    next h0 => exact if_pos h0 ▸ ⟨finished_of_accept hrest, by simpa using hbptr⟩
    next h0 =>
      obtain ⟨⟨hq, hb, -, -, hh⟩, hchunk, hcidx⟩ := hrest
      simp [h0, hrem, hbptr, hq, hb, hh, hchunk, hcidx]

/-- R100, R130: the issue step of a command that needs a buffer, from what its pseudocode does. -/
theorem rangeIssueStep (i : Instr) (ty : ElemType) {u : State} (hu : u = accept (encode i) .needed r s)
    (huse : useOf i = .needed) (hacc : Accepted .needed r s)
    (hrange : (startOf i u).bytelen = byteLength u.params ty u.len ∧ (startOf i u).cursor = u.cursor)
    (hstarts : RangeStarts q k (lengthOf ty u) u (startOf i u)) :
    ∃ t, exec i s = .next t ∧ t.bytelen.toNat = issuedLength ty r s ∧ t.cursor = issuedCursor r s
      ∧ t.bufLen = (lentBytes .needed r).length
      ∧ (∀ a, Memory.read t.buf a = (lentBytes .needed r).getD a 0#8)
      ∧ RangeIssued q k (issuedLength ty r s) (issueEvent (encode i) .needed r) r s t := by
  subst hu
  obtain ⟨hlen, hcursor⟩ := hrange
  obtain ⟨-, -, -, -, hbuf, hbufLen, -⟩ := (startOf_cases i (accept (encode i) .needed r s)).keepsIssue
  have hexec := exec_of_accepted (i := i) (huse ▸ hacc)
  rw [huse] at hexec
  refine ⟨_, hexec, ?_, by simpa using hcursor, by simpa using hbufLen, fun a => ?_, rangeIssued_of_starts hstarts⟩
  · rw [advance_bytelen, hlen, byteLength_toNat]
    rfl
  · rw [advance_buf, hbuf]
    exact Memory.read_ofBytes _ a

end RangeIssue

/-- Settles O12: the pseudocode of R100 in the state that the acceptance leaves. -/
theorem writeIssueStep : Obligations.WriteIssueStep := by
  unfold Obligations.WriteIssueStep
  intro ty bus s r hacc
  refine rangeIssueStep (.write ty bus) ty rfl (useOf_write ty bus) hacc ?_ ?_ <;> rw [startOf_write]
  · exact startWrite_range ty _
  · exact startWrite_starts ty _

/-- Settles O13: the pseudocode of R130 in the state that the acceptance leaves. -/
theorem readIssueStep : Obligations.ReadIssueStep := by
  unfold Obligations.ReadIssueStep
  intro ty bus s r hacc
  refine rangeIssueStep (.read ty bus) ty rfl (useOf_read ty bus) hacc ?_ ?_ <;> rw [startOf_read]
  · exact startRead_range ty _
  · exact startRead_starts ty _

/-- Settles O14: the pseudocode of R130 for N = 1, whose CURSOR is the sum modulo 65536. -/
theorem seekIssueStep : Obligations.SeekIssueStep := by
  unfold Obligations.SeekIssueStep
  intro ty bus s r hacc
  have hexec := exec_of_accepted (i := .seek ty bus) (r := r) (s := s) (by simpa using hacc)
  rw [startOf_seek, useOf_seek] at hexec
  have hlen : (byteLength s.params ty r.len).toNat = issuedLength ty r s := byteLength_toNat s.params ty r.len
  refine ⟨_, hexec, ?_⟩
  dsimp only
  by_cases h : Config.CAPACITY < (issuedCursor r s).toNat + issuedLength ty r s
  · rw [if_pos h, startSeek_of_above ty (accept (encode (.seek ty bus)) .null r s) h]
    simp [loadByteLength, hlen, Finished, issueEvent, lentBytes]
  · rw [if_neg h, startSeek_of_fits ty (accept (encode (.seek ty bus)) .null r s) (Nat.le_of_not_lt h)]
    simp [loadByteLength, hlen, issueEvent, lentBytes, cursorPlus, lengthOf_accept]

/-- Settles O15: the pseudocode of R120 sets BPTR and STATE only. -/
theorem addrIssueStep : Obligations.AddrIssueStep := by
  unfold Obligations.AddrIssueStep
  intro bus s r hacc
  refine ⟨_, exec_of_accepted (i := .addr bus) hacc, ?_⟩
  simp [startAddr, issueEvent]

end Sys2Proof.Machine

/-! ## Whole commands (spec/70_reset_and_hazards.md R211): ADDR and the seeks, from Issue to Done -/

namespace Sys2Proof.Machine

open Sys2Proof.Safety

/-! ### Runs -/

/-- A run of m steps, and then a run of n. -/
theorem run_add {m n : Nat} {s t : State} (h : Sys2Proof.core.run m s = .next t) :
    Sys2Proof.core.run (m + n) s = Sys2Proof.core.run n t := by
  induction m generalizing s with
  | zero =>
    cases h
    rw [Nat.zero_add]
  | succ m ih =>
    cases hstep : step s with
    | next v =>
      rw [Nat.add_right_comm, run_succ _ hstep]
      exact ih ((run_succ m hstep).symm.trans h)
    | fault | refused =>
      have hstep' : Sys2Proof.core.step s = _ := hstep
      simp only [Host.Core.run, hstep'] at h
      cases h

section RunsTo

variable {s u v : State}

/-- Events recorded twice are the one list of them, and the later surroundings stand. -/
theorem recorded_recorded (xs ys : List Event) (env env' : Surroundings) :
    recorded (recorded s xs env) ys env' = recorded s (xs ++ ys) env' := by
  simp [recorded]

/-- On the way from s to the surroundings env, k answers were used and no move of the host. -/
def Uses (k : Nat) (s : State) (env : Surroundings) : Prop := env.answers = s.answers.drop k ∧ env.inbox = s.inbox

theorem Uses.onlyCalls {k : Nat} {s : State} {env : Surroundings} (h : Uses k s env)
    (hcalls : Safety.onlyCalls s.inbox = true) : Safety.onlyCalls env.inbox = true := by
  rw [h.2, hcalls]

/-- n steps from s record the events, use k answers and lead to u, but for the events and the surroundings after them. -/
def RunsTo (n k : Nat) (events : List Event) (s u : State) : Prop :=
  ∃ env, Uses k s env ∧ Sys2Proof.core.run n s = .next (recorded u events env)

/-- A run that goes on from where a run has led. -/
theorem RunsTo.trans {m n j k : Nat} {xs ys : List Event} (h : RunsTo m j xs s u)
    (h' : ∀ env, Uses j s env → RunsTo n k ys (recorded u xs env) (recorded v xs env)) :
    RunsTo (m + n) (j + k) (xs ++ ys) s v := by
  obtain ⟨env, ⟨hanswers, hinbox⟩, hrun⟩ := h
  obtain ⟨env', ⟨hanswers', hinbox'⟩, hrun'⟩ := h' env ⟨hanswers, hinbox⟩
  refine ⟨env', ⟨?_, hinbox'.trans hinbox⟩, ?_⟩
  · rw [hanswers', ← List.drop_drop, ← hanswers]
    rfl
  · rw [run_add hrun, hrun', recorded_recorded]

/-- The step of a primitive that takes no answer; f is what its row does after it. -/
theorem runsTo_primitive {e : Event} {k : Nat} {events : List Event} (f : State → State) (hcalls : onlyCalls s.inbox = true)
    (hr : s.seq.running = true) (hk : slept [e] = k) (hp : perform s = f (advance k (record e s)))
    (hf : ∀ env, f (recorded s [e] env) = recorded u events env) : RunsTo 1 0 events s u := by
  obtain ⟨env, henv, -⟩ := (prepared_refl s).primitive e hk
  have hanswers : (recorded s [e] env).answers = s.answers := henv ▸ (advance_answers k _)
  have hinbox : (recorded s [e] env).inbox = s.inbox := henv ▸ (advance_inbox k _)
  refine ⟨env, ⟨hanswers, hinbox⟩, ?_⟩
  rw [run_succ 0 (step_of_onlyCalls hcalls hr), hp, henv, hf]
  rfl

/-- A row that takes no answer and changes STATE only. -/
theorem runsTo_row {e : Event} {k : Nat} (q : Seq) (hcalls : onlyCalls s.inbox = true) (hr : s.seq.running = true)
    (hk : slept [e] = k) (hp : perform s = { advance k (record e s) with seq := q }) : RunsTo 1 0 [e] s { s with seq := q } :=
  runsTo_primitive (fun w => { w with seq := q }) hcalls hr hk hp fun _ => rfl

theorem RunsTo.row {m j k : Nat} {xs : List Event} {e : Event} (q : Seq) (h : RunsTo m j xs s u)
    (hcalls : onlyCalls s.inbox = true) (hr : u.seq.running = true) (hk : slept [e] = k)
    (hp : ∀ env, perform (recorded u xs env) = { advance k (record e (recorded u xs env)) with seq := q }) :
    RunsTo (m + 1) j (xs ++ [e]) s { u with seq := q } :=
  RunsTo.trans (v := { u with seq := q }) h fun env hu =>
    runsTo_row (s := recorded u xs env) q (hu.onlyCalls hcalls) hr hk (hp env)

/-- The step of a primitive that takes an answer of its type; f is what its row does after it. -/
theorem runsTo_answered {e : Event} {events : List Event} (f : State → State) (hcalls : onlyCalls s.inbox = true)
    (hr : s.seq.running = true) (hk : slept [e] = 0) (hp : perform s = f (advance 0 (record e (dropAnswer s))))
    (hf : ∀ env, f (recorded s [e] env) = recorded u events env) : RunsTo 1 1 events s u := by
  obtain ⟨env, henv, -⟩ := (prepared_refl s).answered e hk
  have hanswers : (recorded s [e] env).answers = s.answers.tail := henv ▸ (by simp)
  have hinbox : (recorded s [e] env).inbox = s.inbox := henv ▸ (by simp)
  refine ⟨env, ⟨hanswers.trans List.drop_one.symm, hinbox⟩, ?_⟩
  rw [run_succ 0 (step_of_onlyCalls hcalls hr), hp, henv, hf]
  rfl

end RunsTo

/-- s with the command finished, but for the event Done. -/
def ended (r : ResultCode) (s : State) : State :=
  { s with result := r, resultValid := true, busy := false, seq := .idle }

theorem finish_recorded (r : ResultCode) (s : State) (events : List Event) (env : Surroundings) :
    finish r (recorded s events env) = recorded (ended r s) (events ++ [.done r]) env := by
  simp [finish, recorded, ended]

/-! ### The offset of a transaction (R57) -/

/-- Three rows that begin a transaction and send the offset, high byte first: of a data chunk (R102) or an address (R121). -/
theorem runsTo_offset {s : State} {p₁ p₂ p₃ q : Seq} (hcalls : onlyCalls s.inbox = true) (hq : s.seq = p₁)
    (hr : p₁.running = true ∧ p₂.running = true ∧ p₃.running = true)
    (h₁ : ∀ u : State, u.seq = p₁ → perform u = { txBegin (busOf u) u with seq := p₂ })
    (h₂ : ∀ u : State, u.seq = p₂ → perform u = { txWrite (offsetHigh u) u with seq := p₃ })
    (h₃ : ∀ u : State, u.seq = p₃ → perform u = { txWrite (offsetLow u) u with seq := q }) :
    RunsTo 3 0 (offsetEvents (busOf s) s.cursor) s { s with seq := q } := by
  obtain ⟨hr₁, hr₂, hr₃⟩ := hr
  have hbegin : RunsTo 1 0 [.begin (busOf s)] s { s with seq := p₂ } := runsTo_row p₂ hcalls (hq ▸ hr₁) rfl (h₁ s hq)
  exact (hbegin.row p₃ hcalls hr₂ rfl fun _ => h₂ _ rfl).row q hcalls hr₃ rfl fun _ => h₃ _ rfl

/-! ### The address-only sequence (R121) -/

theorem runsTo_aEnd {s : State} {status : TxStatus} (hcalls : onlyCalls s.inbox = true) (hq : s.seq = .aEnd)
    (hst : TxStatus.ofRaw (nextAnswer s) = some status) :
    RunsTo 1 1 [.endTx status, .done (resultOf status)] s (ended (resultOf status) s) := by
  refine runsTo_answered (finish (resultOf status)) hcalls (hq ▸ rfl) rfl ?_ fun env => finish_recorded _ s _ env
  simp only [perform, hq, stepAEnd]
  exact txEnd_of_status _ hst

/-- R121: the four steps of an address-only transaction finish with its close status, whatever it is. -/
theorem runsTo_address {s : State} {raw : Nat} {rest : List Nat} {status : TxStatus} (hcalls : onlyCalls s.inbox = true)
    (hq : s.seq = .aBegin) (hanswers : s.answers = raw :: rest) (hst : TxStatus.ofRaw raw = some status) :
    RunsTo 4 1 (offsetEvents (busOf s) s.cursor ++ [.endTx status, .done (resultOf status)]) s
      (ended (resultOf status) { s with seq := .aEnd }) := by
  have hoffset : RunsTo 3 0 (offsetEvents (busOf s) s.cursor) s { s with seq := .aEnd } :=
    runsTo_offset (p₂ := .aAhi) (p₃ := .aAlo) hcalls hq ⟨rfl, rfl, rfl⟩
      (fun u hu => by simp only [perform, hu, stepABegin])
      (fun u hu => by simp only [perform, hu, stepAAhi]) (fun u hu => by simp only [perform, hu, stepAAlo])
  refine RunsTo.trans (v := ended (resultOf status) { s with seq := .aEnd }) hoffset fun env hu =>
    runsTo_aEnd (hu.onlyCalls hcalls) rfl ?_
  have hnext : nextAnswer (recorded { s with seq := .aEnd } (offsetEvents (busOf s) s.cursor) env) = raw := by
    have : env.answers = raw :: rest := hu.1.trans hanswers
    simp [nextAnswer, recorded, this]
  rw [hnext, hst]

/-! ### The Issue of a call -/

/-- R185, R187: the step of an accepted call whose word is that of i. -/
theorem step_of_accepted {i : Instr} {s : State} {r : IssueReq} (hacc : Accepted (useOf i) r s) (hdec : decode r.cmd = some i) :
    step s = .next (advance 0 (startOf i (accept r.cmd (useOf i) r s))) := by
  obtain ⟨j, hj, hstep⟩ | ⟨hnone, -⟩ := step_of_fetch hacc.1
  · cases hdec.symm.trans hj
    rw [hstep, exec_of_accepted hacc, encode_of_decode hdec]
  · cases hdec.symm.trans hnone

/-- R121: from an accepted Issue whose pseudocode leads to A_BEGIN to Done. -/
theorem run_address {i : Instr} {s u : State} {r : IssueReq} {later : List HostMove} {raw : Nat} {rest : List Nat}
    {status : TxStatus} (hacc : Accepted (useOf i) r s) (hdec : decode r.cmd = some i) (hin : s.inbox = .call r :: later)
    (hcalls : onlyCalls later = true) (hanswers : s.answers = raw :: rest) (hst : TxStatus.ofRaw raw = some status)
    (hu : startOf i (accept r.cmd (useOf i) r s) = u) (hq : u.seq = .aBegin) :
    ∃ env, Sys2Proof.core.run 5 s = .next (recorded (ended (resultOf status) { advance 0 u with seq := .aEnd })
        (offsetEvents i.bus (advance 0 u).cursor ++ [.endTx status, .done (resultOf status)]) env)
      ∧ env.answers = rest ∧ env.inbox = later := by
  obtain ⟨hcmd, -, -, -, -, -, -, -, ha, hi, -⟩ := hu ▸ (startOf_cases i (accept r.cmd (useOf i) r s)).keepsIssue
  have hinbox : (advance 0 u).inbox = later := by simp [hi, hin]
  have hans : (advance 0 u).answers = raw :: rest := by simp [ha, hanswers]
  have hbus : busOf (advance 0 u) = i.bus := busOf_of_cmd (by simp [hcmd, encode_of_decode hdec])
  obtain ⟨env, ⟨ha', hi'⟩, hrun⟩ := runsTo_address (hinbox ▸ hcalls) (by simpa using hq) hans hst
  rw [hbus] at hrun
  exact ⟨env, (run_succ 4 (hu ▸ step_of_accepted hacc hdec)).trans hrun, by rw [ha', hans]; rfl, hi'.trans hinbox⟩

/-- Settles O56: the issue step of ADDR, and then the address-only sequence. -/
theorem addrRunsToCompletion : Obligations.AddrRunsToCompletion := by
  unfold Obligations.AddrRunsToCompletion
  intro bus s r later raw rest status hacc hdec hin hcalls hanswers hst
  obtain ⟨env, hrun, ha, hi⟩ := run_address (i := .addr bus) hacc hdec hin hcalls hanswers hst rfl rfl
  refine ⟨_, hrun, ⟨rfl, rfl, rfl, rfl, ?_⟩, ?_, ?_, ha, hi⟩
  all_goals simp [recorded, ended, startAddr, offsetEvents, issueEvent, Instr.bus]

/-- Settles O57: the issue step of READ.T.N advances CURSOR; the address-only sequence sends it. -/
theorem seekRunsToCompletion : Obligations.SeekRunsToCompletion := by
  unfold Obligations.SeekRunsToCompletion
  intro ty bus s r later raw rest status hacc hdec hin hcalls hanswers hst hfits
  have hu := startSeek_of_fits ty (accept r.cmd .null r s) hfits
  obtain ⟨env, hrun, ha, hi⟩ := run_address (i := .seek ty bus) (by simpa using hacc) hdec hin hcalls hanswers hst
    (by rw [startOf_seek, useOf_seek, hu]) rfl
  refine ⟨_, hrun, ⟨rfl, rfl, rfl, rfl, ?_⟩, ?_, ?_, ?_, ?_, ha, hi⟩
  all_goals simp [recorded, ended, loadByteLength, offsetEvents, issueEvent, cursorPlus, lengthOf_accept, lentBytes,
    Memory.ofBytes, Memory.ofBytesFrom]

end Sys2Proof.Machine

/-! ## Whole commands: WRITE.T with a fixed settle delay (spec/40_write.md R106, R109) -/

namespace Sys2Proof.Machine

open Sys2Proof.Safety

section Chunk

variable {s : State}

/-- R102: the step of W_DATA within the buffer. -/
theorem runsTo_wData (hcalls : onlyCalls s.inbox = true) (hq : s.seq = .wData) (hb : writeIndex s < s.bufLen) :
    RunsTo 1 0 [.wr (Memory.read s.buf (writeIndex s))] s
      { s with cidx := s.cidx + 1#8, seq := if s.cidx + 1#8 < s.chunk then .wData else .wEnd } := by
  refine runsTo_primitive (fun w => { w with
    cidx := s.cidx + 1#8, seq := if s.cidx + 1#8 < s.chunk then .wData else .wEnd }) hcalls (hq ▸ rfl) rfl ?_ fun _ => rfl
  simp only [perform, hq, stepWData, if_neg (Nat.not_le.mpr hb)]
  rfl

/-- The next byte of a chunk that has m bytes left after it. -/
theorem cidx_succ {x c : BitVec 8} {m : Nat} (h : x.toNat + (m + 1) = c.toNat) :
    (x + 1#8).toNat + m = c.toNat ∧ (x + 1#8 < c ↔ 0 < m) := by
  rw [BitVec.lt_def, BitVec.toNat_add]
  have := c.isLt
  simp only [BitVec.toNat_ofNat]
  omega

/-- R102: the m + 1 bytes that W_DATA still has to send. -/
theorem runsTo_data (m : Nat) (hcalls : onlyCalls s.inbox = true) (hq : s.seq = .wData)
    (hm : s.cidx.toNat + (m + 1) = s.chunk.toNat) (hb : s.bptr.toNat + s.chunk.toNat ≤ s.bufLen) :
    RunsTo (m + 1) 0 ((List.range (m + 1)).map fun j => .wr (Memory.read s.buf (writeIndex s + j))) s
      { s with cidx := s.chunk, seq := .wEnd } := by
  induction m generalizing s with
  | zero =>
    obtain ⟨hlast, hmore⟩ := cidx_succ hm
    have hstep := runsTo_wData hcalls hq (by rw [writeIndex]; omega)
    rwa [if_neg (by simp [hmore]), BitVec.eq_of_toNat_eq hlast] at hstep
  | succ m ih =>
    obtain ⟨hnext, hmore⟩ := cidx_succ hm
    have hstep := runsTo_wData hcalls hq (by rw [writeIndex]; omega)
    rw [if_pos (hmore.mpr m.succ_pos)] at hstep
    let u : State := { s with cidx := s.cidx + 1#8, seq := .wData }
    have hrest := RunsTo.trans (v := { u with cidx := s.chunk, seq := .wEnd })
      (ys := (List.range (m + 1)).map fun j => .wr (Memory.read u.buf (writeIndex u + j))) hstep fun env hu =>
      ih (s := recorded u [.wr (Memory.read s.buf (writeIndex s))] env) (hu.onlyCalls hcalls) rfl hnext hb
    have hindex (j : Nat) : writeIndex u + j = writeIndex s + (j + 1) := by
      simp only [writeIndex, u]
      omega
    simpa [Nat.add_comm 1, List.range_succ_eq_map (n := m + 1), Function.comp_def, hindex, u] using hrest

/-- R102: all bytes of a chunk. -/
theorem runsTo_chunkData (hcalls : onlyCalls s.inbox = true) (hq : s.seq = .wData) (hcidx : s.cidx = 0#8)
    (hchunk : s.chunk ≠ 0#8) (hb : s.bptr.toNat + s.chunk.toNat ≤ s.bufLen) :
    RunsTo s.chunk.toNat 0 ((List.range s.chunk.toNat).map fun j => .wr (Memory.read s.buf (s.bptr.toNat + j))) s
      { s with cidx := s.chunk, seq := .wEnd } := by
  obtain ⟨m, hm⟩ := Nat.exists_eq_succ_of_ne_zero (n := s.chunk.toNat) (fun h => hchunk (BitVec.eq_of_toNat_eq h))
  have h := runsTo_data m hcalls hq (by simp [hcidx, hm]) hb
  simpa [writeIndex, hcidx, hm] using h

/-- R103: the close of a chunk with OK. -/
theorem runsTo_wEnd (hcalls : onlyCalls s.inbox = true) (hq : s.seq = .wEnd) {rest : List Nat}
    (hanswers : s.answers = 0 :: rest) : RunsTo 1 1 [.endTx .ok] s (chunkWritten s) := by
  refine runsTo_answered chunkWritten hcalls (hq ▸ rfl) rfl ?_ fun env => rfl
  have hok : TxStatus.ofRaw (nextAnswer s) = some .ok := by simp [nextAnswer, hanswers, TxStatus.ofRaw]
  simp only [perform, hq, stepWEnd, txEnd_of_status _ hok, if_pos]

/-- R106: the settle delay, and the next chunk. -/
theorem run_wSettle (hcalls : onlyCalls s.inbox = true) (hq : s.seq = .wSettle) :
    ∃ env, Uses 0 s env ∧ Sys2Proof.core.run 1 s = .next (nextWriteChunk (recorded s [.sleep s.settle] env)) := by
  obtain ⟨env, henv, -⟩ := (prepared_refl s).primitive (.sleep s.settle) (k := s.settle.toNat) (by simp [slept])
  have hanswers : (recorded s [.sleep s.settle] env).answers = s.answers := henv ▸ by simp
  have hinbox : (recorded s [.sleep s.settle] env).inbox = s.inbox := henv ▸ by simp
  refine ⟨env, ⟨hanswers, hinbox⟩, ?_⟩
  rw [run_succ 0 (step_of_onlyCalls hcalls (hq ▸ rfl))]
  simp only [perform, hq, stepWSettle, clkSleep, henv]
  rfl

/-- R102, R103, R106: a data chunk closed with OK, and the settle delay. -/
theorem run_settledChunk (hcalls : onlyCalls s.inbox = true) (hq : s.seq = .wBegin) (hcidx : s.cidx = 0#8)
    (hchunk : s.chunk ≠ 0#8) (hb : s.bptr.toNat + s.chunk.toNat ≤ s.bufLen) (hsettle : s.settle ≠ 0#32)
    {rest : List Nat} (hanswers : s.answers = 0 :: rest) :
    ∃ env, env.answers = rest ∧ env.inbox = s.inbox ∧ Sys2Proof.core.run (s.chunk.toNat + 5) s
      = .next (nextWriteChunk (recorded (chunkWritten { s with cidx := s.chunk })
          (settledChunkEvents (busOf s) s.settle s.buf s.cursor s.bptr.toNat s.chunk.toNat) env)) := by
  let data : List Event := (List.range s.chunk.toNat).map fun j => .wr (Memory.read s.buf (s.bptr.toNat + j))
  have hoffset : RunsTo 3 0 (offsetEvents (busOf s) s.cursor) s { s with seq := .wData } :=
    runsTo_offset (p₂ := .wAhi) (p₃ := .wAlo) hcalls hq ⟨rfl, rfl, rfl⟩
      (fun u hu => by simp only [perform, hu, stepWBegin]) (fun u hu => by simp only [perform, hu, stepWAhi])
      (fun u hu => by simp only [perform, hu, stepWAlo])
  have hdata := RunsTo.trans (v := { s with cidx := s.chunk, seq := .wEnd }) (n := s.chunk.toNat) (ys := data) hoffset
    fun env hu =>
    runsTo_chunkData (s := recorded { s with seq := .wData } _ env) (hu.onlyCalls hcalls) rfl hcidx hchunk hb
  have hclosed := RunsTo.trans (v := chunkWritten { s with cidx := s.chunk }) (ys := [.endTx .ok]) hdata fun env hu =>
    runsTo_wEnd (s := recorded { s with cidx := s.chunk, seq := .wEnd } _ env) (hu.onlyCalls hcalls) rfl
      (hu.1.trans hanswers)
  obtain ⟨env, hu, hrun⟩ := hclosed
  obtain ⟨env', hu', hrun'⟩ := run_wSettle (s := recorded (chunkWritten { s with cidx := s.chunk }) _ env)
    (hu.onlyCalls hcalls) (if_neg hsettle)
  refine ⟨env', ?_, hu'.2.trans hu.2, ?_⟩
  · rw [hu'.1]
    exact hu.1.trans (by rw [hanswers]; rfl)
  · rw [show s.chunk.toNat + 5 = 3 + s.chunk.toNat + 1 + 1 by omega, run_add hrun, hrun', recorded_recorded]
    simp [settledChunkEvents, data, recorded, chunkWritten]

end Chunk

/-! ### All chunks (R101) -/

/-- The number of chunks of a write of n bytes from offset c (R101). -/
def chunkCount (c n : Nat) : Nat := if n = 0 then 0 else (c % Config.PAGE + n + (Config.PAGE - 1)) / Config.PAGE

/-- R101: the first chunk, of m bytes, and those of the bytes after it. -/
theorem chunkCount_of_pos {c n m : Nat} (h : n ≠ 0) (hm : m = min (Config.PAGE - c % Config.PAGE) n) :
    chunkCount c n = chunkCount (c + m) (n - m) + 1 := by
  simp only [Config.PAGE] at hm
  simp only [chunkCount, Config.PAGE, if_neg h]
  by_cases h0 : n - m = 0
  · rw [if_pos h0]
    omega
  · rw [if_neg h0]
    omega

/-- u at the start of a chunk of x bytes (R101). -/
def chunkStarted (x : BitVec 8) (u : State) : State := { u with chunk := x, cidx := 0#8, seq := .wBegin }

/-- u at the end of a chunk of x bytes that was closed with OK (R103). -/
def chunkClosed (x : BitVec 8) (u : State) : State := chunkWritten { u with chunk := x, cidx := x }

/-- u is about to start a chunk of a write that has n bytes left, from offset c on, for which BUF has bytes and TIME a delay. -/
structure SettledWrite (c n : Nat) (u : State) : Prop where
  cursor : u.cursor = BitVec.ofNat 16 c
  rem : u.rem.toNat = n
  device : c + n ≤ Config.CAPACITY
  buffer : u.bptr.toNat + n ≤ u.bufLen
  bptr : u.bptr.toNat + n ≤ Config.CAPACITY
  settle : u.settle ≠ 0#32
  calls : onlyCalls u.inbox = true

section SettledWrite

variable {c n : Nat} {u : State} {rest : List Nat}

theorem SettledWrite.cursor_toNat (h : SettledWrite c n u) (hn : n ≠ 0) : u.cursor.toNat = c := by
  have hdevice := h.device
  simp only [Config.CAPACITY] at hdevice
  rw [h.cursor, BitVec.toNat_ofNat]
  omega

/-- The start of a chunk where bytes are left (R101). -/
theorem SettledWrite.nextWriteChunk_eq (h : SettledWrite c n u) (hn : n ≠ 0) :
    ∃ x : BitVec 8, x.toNat = min (Config.PAGE - c % Config.PAGE) n ∧ nextWriteChunk u = chunkStarted x u := by
  obtain ⟨hrem, -⟩ | ⟨-, hnext⟩ := nextWriteChunk_cases u
  · exact absurd (h.rem.symm.trans (congrArg BitVec.toNat hrem)) hn
  · exact ⟨_, by rw [writeChunk_toNat, h.rem, bytesToBoundary, h.cursor_toNat hn], hnext⟩

/-- The end of a chunk within the bytes left (R103). -/
theorem SettledWrite.closed (h : SettledWrite c n u) {x : BitVec 8} (hpos : 0 < x.toNat) (hle : x.toNat ≤ n)
    {events : List Event} {env : Surroundings} (hin : env.inbox = u.inbox) :
    SettledWrite (c + x.toNat) (n - x.toNat) (recorded (chunkClosed x u) events env)
      ∧ (chunkClosed x u).bptr.toNat = u.bptr.toNat + x.toNat := by
  have hrem := h.rem
  have hdevice := h.device
  have hbuffer := h.buffer
  have hbptr := h.bptr
  obtain ⟨hb, -, hr⟩ : (chunkClosed x u).bptr.toNat = u.bptr.toNat + x.toNat ∧ _
      ∧ (chunkClosed x u).rem.toNat + x.toNat = u.rem.toNat :=
    chunkWritten_progress (s := { u with chunk := x, cidx := x }) (hrem ▸ hle) (hrem ▸ hbptr)
  refine ⟨⟨?_, Nat.eq_sub_of_add_eq (hr.trans hrem), by omega, ?_, ?_, h.settle,
    (congrArg onlyCalls hin).trans h.calls⟩, hb⟩
  · change cursorPlus u x.toNat = _
    rw [cursorPlus, h.cursor_toNat (by omega)]
  · change (chunkClosed x u).bptr.toNat + _ ≤ u.bufLen
    omega
  · change (chunkClosed x u).bptr.toNat + _ ≤ _
    omega

/-- What a settled chunk leaves of a write (R103, R106). -/
structure ChunkSettled (c m : Nat) (rest : List Nat) (u v : State) : Prop where
  hist : v.hist = u.hist ++ settledChunkEvents (busOf u) u.settle u.buf (BitVec.ofNat 16 c) u.bptr.toNat m
  bptr : v.bptr.toNat = u.bptr.toNat + m
  answers : v.answers = rest
  inbox : v.inbox = u.inbox
  buf : v.buf = u.buf
  settle : v.settle = u.settle
  bus : busOf v = busOf u

/-- R102, R103, R106: a chunk of a write, closed with OK. -/
theorem SettledWrite.run_chunk (h : SettledWrite c n u) (hn : n ≠ 0) (hanswers : u.answers = 0 :: rest) {m : Nat}
    (hm : m = min (Config.PAGE - c % Config.PAGE) n) :
    ∃ v, Sys2Proof.core.run (m + 5) (nextWriteChunk u) = .next (nextWriteChunk v)
      ∧ SettledWrite (c + m) (n - m) v ∧ ChunkSettled c m rest u v := by
  obtain ⟨x, hx, hnext⟩ := h.nextWriteChunk_eq hn
  rw [← hm] at hx
  subst hx
  obtain ⟨hpos, hle⟩ : 0 < x.toNat ∧ x.toNat ≤ n := by
    simp only [Config.PAGE] at hm
    omega
  have hx0 : x ≠ 0#8 := fun h0 => hpos.ne' (congrArg BitVec.toNat h0)
  have hbuffer : u.bptr.toNat + x.toNat ≤ u.bufLen := (Nat.add_le_add_left hle _).trans h.buffer
  obtain ⟨env, ha, hi, hrun⟩ := run_settledChunk (s := chunkStarted x u) h.calls rfl rfl hx0 hbuffer h.settle hanswers
  let events := settledChunkEvents (busOf u) u.settle u.buf u.cursor u.bptr.toNat x.toNat
  obtain ⟨hclosed, hb⟩ := h.closed hpos hle (events := events) hi
  exact ⟨recorded (chunkClosed x u) events env, hnext ▸ hrun, hclosed,
    ⟨by rw [← h.cursor]; rfl, hb, ha, hi, rfl, rfl, rfl⟩⟩

/-- R101, R109: the rest of a write, from the start of a chunk to Done. -/
theorem SettledWrite.run_chunks {k : Nat} (h : SettledWrite c n u) (hk : k = chunkCount c n)
    (hanswers : u.answers = List.replicate k 0 ++ rest) :
    ∃ t, Sys2Proof.core.run (n + 5 * k) (nextWriteChunk u) = .next t
      ∧ Finished .success (settledWriteEvents (busOf u) u.settle u.buf (chunkSizes k c n) c u.bptr.toNat) u t
      ∧ t.cursor.toNat = (c + n) % 65536 ∧ t.bptr.toNat = u.bptr.toNat + n ∧ t.answers = rest ∧ t.inbox = u.inbox := by
  induction k generalizing c n u with
  | zero =>
    obtain rfl : n = 0 := by
      by_contra hn
      cases hk.trans (chunkCount_of_pos hn rfl)
    obtain ⟨-, hnext⟩ | ⟨hrem, -⟩ := nextWriteChunk_cases u
    · exact ⟨_, rfl, by simp [hnext, Finished, chunkSizes, settledWriteEvents, hanswers, h.cursor, finish]⟩
    · exact absurd (BitVec.eq_of_toNat_eq h.rem) hrem
  | succ k ih =>
    have hn : n ≠ 0 := by
      rintro rfl
      cases hk
    obtain ⟨m, hm⟩ : ∃ m, m = min (Config.PAGE - c % Config.PAGE) n := ⟨_, rfl⟩
    obtain ⟨v, hrun, hv, hs⟩ := h.run_chunk hn (by rw [hanswers, List.replicate_succ, List.cons_append]) hm
    obtain ⟨t, hrun', ⟨hq, hbusy, hres, hvalid, hhist⟩, hc, hb, ha, hi⟩ :=
      ih hv (Nat.succ.inj (hk.trans (chunkCount_of_pos hn hm))) hs.answers
    have hle : m ≤ n := hm ▸ Nat.min_le_right _ _
    refine ⟨t, ?_, ⟨hq, hbusy, hres, hvalid, ?_⟩, ?_, ?_, ha, hi.trans hs.inbox⟩
    · rw [show n + 5 * (k + 1) = m + 5 + (n - m + 5 * k) by omega, run_add hrun, hrun']
    · rw [hhist, hs.hist, hs.bus, hs.settle, hs.buf, hs.bptr, chunkSizes, if_neg hn, ← hm, settledWriteEvents]
      simp
    · rw [hc]
      omega
    · rw [hb, hs.bptr]
      omega

end SettledWrite

/-- R190: what advance changes. -/
theorem advance_eq (k : Nat) (u : State) : advance k u = { u with
    time := u.time + k + nextDelay u, delays := u.delays.tail, ticks := if u.delays = [] then u.ticks + 1 else u.ticks } := by
  unfold advance
  split
  next hd => simp only [hd, List.tail_cons, reduceCtorEq, if_false]
  next hd => simp only [hd, List.tail_nil, if_true]

/-- TIME may go by before the start of a chunk as after it. -/
theorem advance_nextWriteChunk (k : Nat) (u : State) : advance k (nextWriteChunk u) = nextWriteChunk (advance k u) := by
  unfold nextWriteChunk
  rw [apply_ite (advance k)]
  simp only [advance_eq]
  rfl

theorem startWrite_of_fits (ty : ElemType) (s : State) (h : s.cursor.toNat + lengthOf ty s ≤ Config.CAPACITY) :
    startWrite ty s = nextWriteChunk (loadRange ty s) := by
  rw [startWrite_eq, if_neg (Nat.not_lt.mpr h)]

/-! ### The issue step -/

/-- The state in which a write or buffered read starts its first chunk (R100, R130). -/
def issuedRange (ty : ElemType) (r : IssueReq) (s : State) : State :=
  advance 0 (loadRange ty (accept r.cmd .needed r s))

section IssuedRange

variable (ty : ElemType) (r : IssueReq) (s : State)

@[simp] theorem issuedRange_cursor : (issuedRange ty r s).cursor = issuedCursor r s := by simp [issuedRange, loadRange]
@[simp] theorem issuedRange_bptr : (issuedRange ty r s).bptr = 0#17 := by simp [issuedRange, loadRange]
@[simp] theorem issuedRange_settle : (issuedRange ty r s).settle = r.settle := by simp [issuedRange, loadRange]
@[simp] theorem issuedRange_cmd : (issuedRange ty r s).cmd = r.cmd := by simp [issuedRange, loadRange]
@[simp] theorem issuedRange_params : (issuedRange ty r s).params = s.params := by simp [issuedRange, loadRange]
@[simp] theorem issuedRange_answers : (issuedRange ty r s).answers = s.answers := by simp [issuedRange, loadRange]
@[simp] theorem issuedRange_inbox : (issuedRange ty r s).inbox = s.inbox.tail := by simp [issuedRange, loadRange]
@[simp] theorem issuedRange_hist : (issuedRange ty r s).hist = s.hist ++ [issueEvent r.cmd .needed r] := by
  simp [issuedRange, loadRange]

variable {ty r s} {bytes : LentBuffer}

theorem issuedRange_rem (h : (issuedCursor r s).toNat + issuedLength ty r s ≤ Config.CAPACITY) :
    (issuedRange ty r s).rem.toNat = issuedLength ty r s :=
  (congrArg BitVec.toNat (advance_rem 0 _)).trans (loadRange_rem ty (accept r.cmd .needed r s) h)

theorem lentBytes_of_buf (h : r.buf = some bytes) : lentBytes .needed r = bytes.val := by simp [lentBytes, h]

theorem issuedRange_buf (h : r.buf = some bytes) :
    (issuedRange ty r s).buf = Memory.ofBytes bytes.val ∧ (issuedRange ty r s).bufLen = bytes.val.length := by
  simp [issuedRange, loadRange, lentBytes_of_buf h]

/-- The first chunk of a write within buffer and device, with a settle delay. -/
theorem settledWrite_issuedRange (hfits : (issuedCursor r s).toNat + issuedLength ty r s ≤ Config.CAPACITY)
    (hbuf : r.buf = some bytes) (hlen : issuedLength ty r s ≤ bytes.val.length) (hsettle : 0 < r.settle.toNat)
    (hcalls : onlyCalls s.inbox.tail = true) :
    SettledWrite (issuedCursor r s).toNat (issuedLength ty r s) (issuedRange ty r s) where
  cursor := by simp
  rem := issuedRange_rem hfits
  device := hfits
  buffer := by simpa [issuedRange_buf hbuf] using hlen
  bptr := by simpa using (Nat.le_add_left _ _).trans hfits
  settle := by simpa [BitVec.toNat_pos, BitVec.pos_iff_ne_zero] using hsettle
  calls := by simpa using hcalls

end IssuedRange

/-- Settles O58: the issue step, and then chunk after chunk. -/
theorem settledWriteRunsToCompletion : Obligations.SettledWriteRunsToCompletion := by
  unfold Obligations.SettledWriteRunsToCompletion
  intro ty bus s r later bytes rest hacc hdec hin hcalls hbuf hsettle c n k hn hlen hfits hanswers
  obtain ⟨hmem, -⟩ := issuedRange_buf (ty := ty) (s := s) hbuf
  have hstep : step s = .next (nextWriteChunk (issuedRange ty r s)) := by
    rw [step_of_accepted (by simpa using hacc) hdec, startOf_write, useOf_write, startWrite_of_fits ty _ hfits,
      advance_nextWriteChunk, issuedRange]
  have hbus : busOf (issuedRange ty r s) = bus := by
    rw [busOf_of_cmd ((issuedRange_cmd ty r s).trans (encode_of_decode hdec).symm), bus_write]
  have hu : SettledWrite c n (issuedRange ty r s) :=
    settledWrite_issuedRange hfits hbuf hlen hsettle (by simpa [hin] using hcalls)
  have hk : k = chunkCount c n := (if_neg hn.ne').symm
  obtain ⟨t, hrun, ⟨hq, hb, hres, hv, hh⟩, hc, hbptr, ha, hi⟩ := hu.run_chunks hk (rest := rest) (by simpa using hanswers)
  refine ⟨t, ?_, ⟨hq, hb, hres, hv, ?_⟩, hc, by simpa using hbptr, ha, by simp [hi, hin]⟩
  · rw [show 1 + n + 5 * k = n + 5 * k + 1 by omega, run_succ _ hstep, hrun]
  · rw [hh, hbus, hmem]
    simp [issueEvent, lentBytes_of_buf hbuf]

end Sys2Proof.Machine

/-! ## Whole commands: READ.T that is answered fully (spec/42_read.md R132 to R134, R137) -/

namespace Sys2Proof.Machine

open Sys2Proof.Safety

/-! ### What received bytes change -/

/-- The buffer after the bytes are stored from index b on (R134). -/
def stored (m : Memory) (b : Nat) : List Byte → Memory
  | [] => m
  | d :: ds => stored (Memory.write m b d) (b + 1) ds

theorem stored_append (m : Memory) (b : Nat) (xs ys : List Byte) :
    stored m b (xs ++ ys) = stored (stored m b xs) (b + xs.length) ys := by
  induction xs generalizing m b with
  | nil => rfl
  | cons x xs ih =>
    rw [List.cons_append, stored, stored, ih, List.length_cons]
    congr 1
    omega

theorem read_stored {m : Memory} (h : Memory.wf m = true) (b a : Nat) (ds : List Byte) :
    Memory.read (stored m b ds) a = if b ≤ a ∧ a < b + ds.length then ds.getD (a - b) 0#8 else Memory.read m a := by
  induction ds generalizing m b with
  | nil =>
    rw [if_neg (by simp)]
    rfl
  | cons d ds ih =>
    rw [stored, ih (Memory.write_wf m b d h), Memory.read_write m b a d h, List.length_cons]
    obtain hlt | rfl | hgt := Nat.lt_trichotomy a b
    · rw [if_neg (by omega), if_neg (by omega), if_neg (by omega)]
    · rw [if_neg (by omega), if_pos rfl, if_pos (by omega), Nat.sub_self, List.getD_cons_zero]
    · rw [if_neg (Nat.ne_of_gt hgt), show a - b = (a - (b + 1)) + 1 by omega, List.getD_cons_succ]
      exact if_congr (by omega) rfl rfl

/-- v is u after the bytes ds have been received, with the answers rest to come. -/
structure Received (ds : List Byte) (rest : List Nat) (u v : State) : Prop where
  hist : receivedBytes v.hist = receivedBytes u.hist ++ ds
  cursor : v.cursor.toNat = (u.cursor.toNat + ds.length) % 65536
  bptr : v.bptr.toNat = u.bptr.toNat + ds.length
  rem : v.rem.toNat + ds.length = u.rem.toNat
  buf : v.buf = stored u.buf u.bptr.toNat ds
  bufLen : v.bufLen = u.bufLen
  params : v.params = u.params
  inbox : v.inbox = u.inbox
  answers : v.answers = rest

theorem Received.trans {xs ys : List Byte} {rest rest' : List Nat} {u v w : State} (h : Received xs rest u v)
    (h' : Received ys rest' v w) : Received (xs ++ ys) rest' u w where
  hist := by rw [h'.hist, h.hist, List.append_assoc]
  cursor := by
    rw [h'.cursor, h.cursor, List.length_append]
    omega
  bptr := by rw [h'.bptr, h.bptr, List.length_append, Nat.add_assoc]
  rem := by rw [← h.rem, ← h'.rem, List.length_append, Nat.add_assoc, Nat.add_comm ys.length]
  buf := by rw [h'.buf, h.buf, h.bptr, stored_append]
  bufLen := h'.bufLen.trans h.bufLen
  params := h'.params.trans h.params
  inbox := h'.inbox.trans h.inbox
  answers := h'.answers

/-- u is in a read that has n bytes left, all of them within BUF. -/
structure Reading (n : Nat) (u : State) : Prop where
  rem : u.rem.toNat = n
  buffer : u.bptr.toNat + n ≤ u.bufLen
  bptr : u.bptr.toNat + n ≤ Config.CAPACITY
  calls : onlyCalls u.inbox = true

theorem Reading.received {ds : List Byte} {rest : List Nat} {n : Nat} {u v : State} (h : Reading n u)
    (hr : Received ds rest u v) : Reading (n - ds.length) v := by
  have hrem := hr.rem
  have hn := h.rem
  have hbuffer := h.buffer
  have hbptr := h.bptr
  refine ⟨by omega, ?_, ?_, by rw [hr.inbox, h.calls]⟩
  · rw [hr.bptr, hr.bufLen]
    omega
  · rw [hr.bptr]
    omega

/-! ### The rows of one byte (R134) -/

section Byte

variable {u : State} {rest : List Nat} {d : Byte}

/-- R134: "available", and then the byte into BUF. -/
theorem runsTo_byte (hcalls : onlyCalls u.inbox = true) (hq : u.seq = .rAvail) (hb : u.bptr.toNat < u.bufLen)
    (hanswers : u.answers = 1 :: d.toNat :: rest) : RunsTo 2 2 [.avail true, .rd d] u (byteReceived d u) := by
  have havail : RunsTo 1 1 [.avail true] u { u with seq := .rByte } := by
    refine runsTo_answered (fun w => { w with seq := .rByte }) hcalls (hq ▸ rfl) rfl ?_ fun env => rfl
    have hone : nextAnswer u = 1 := by simp [nextAnswer, hanswers]
    simp only [perform, hq, stepRAvail, rxAvailable_of_bit _ hone.le, hone]
    rfl
  refine RunsTo.trans (v := byteReceived d u) (n := 1) (k := 1) (ys := [.rd d]) havail fun env hu => ?_
  let w : State := recorded { u with seq := .rByte } [.avail true] env
  have hnext : nextAnswer w = d.toNat := by
    have : env.answers = d.toNat :: rest := by simp [hu.1, hanswers]
    simp [w, nextAnswer, recorded, this]
  refine runsTo_answered (byteReceived d) (hu.onlyCalls hcalls) rfl rfl ?_ fun env => rfl
  have hp := perform_of_rByte (s := w) rfl hb (by rw [hnext]; exact Nat.le_of_lt_succ d.isLt)
  rwa [hnext, BitVec.ofNat_toNat, BitVec.setWidth_eq] at hp

/-- The byte d has been received and the clock read. -/
theorem received_byte {n : Nat} (h : Reading (n + 1) u) {env : Surroundings} (ha : env.answers = rest)
    (hi : env.inbox = u.inbox) (q : Seq) :
    Received [d] rest u { markTime (recorded (byteReceived d u) [.avail true, .rd d] env) with seq := q } := by
  have hrem := h.rem
  have hbptr := h.bptr
  simp only [Config.CAPACITY] at hbptr
  constructor <;> simp [markTime, clkMillis, recorded, byteReceived, receivedBytes, cursorPlus, stored, ha, hi]
  · omega
  · omega

/-- R134: the three steps of one byte that is there at once; the last starts the next chunk where this one is full. -/
theorem Reading.run_byte {n : Nat} (h : Reading (n + 1) u) (hq : u.seq = .rAvail)
    (hanswers : u.answers = 1 :: d.toNat :: rest) :
    ∃ v, Sys2Proof.core.run 3 u = .next (if u.cidx + 1#8 = u.chunk then nextReadChunk v else v)
      ∧ Received [d] rest u v ∧ v.seq = .rAvail ∧ v.cidx = u.cidx + 1#8 ∧ v.chunk = u.chunk := by
  have hbuffer := h.buffer
  obtain ⟨env, ⟨ha, hi⟩, hrun⟩ := runsTo_byte h.calls hq (by omega) hanswers
  let w : State := recorded (byteReceived d u) [.avail true, .rd d] env
  refine ⟨{ markTime w with seq := .rAvail }, ?_, received_byte h (by simp [ha, hanswers]) hi _, rfl, ?_, ?_⟩
  · have hstep : step w = .next (stepRTmark w) := step_of_onlyCalls ((congrArg onlyCalls hi).trans h.calls) rfl
    exact (run_add hrun).trans (run_succ 0 hstep)
  · simp [w, markTime, clkMillis, recorded, byteReceived]
  · simp [w, markTime, clkMillis, recorded, byteReceived]

/-- R134: the bytes of a chunk, one after another. -/
theorem Reading.run_drain {n : Nat} {ds : List Byte} (h : Reading n u) (hne : ds ≠ []) (hle : ds.length ≤ n)
    (hq : u.seq = .rAvail) (hchunk : u.cidx.toNat + ds.length = u.chunk.toNat)
    (hanswers : u.answers = ds.flatMap (fun d => [1, d.toNat]) ++ rest) :
    ∃ v, Sys2Proof.core.run (3 * ds.length) u = .next (nextReadChunk v) ∧ Received ds rest u v := by
  induction ds generalizing n u with
  | nil => exact absurd rfl hne
  | cons d ds ih =>
    obtain ⟨m, rfl⟩ := Nat.exists_eq_add_of_le' (Nat.one_le_of_lt hle)
    obtain ⟨v, hrun, hr, hv, hcidx, hc⟩ :=
      h.run_byte (rest := ds.flatMap (fun d => [1, d.toNat]) ++ rest) hq hanswers
    obtain ⟨hnext, -⟩ := cidx_succ hchunk
    by_cases hds : ds = []
    · subst hds
      have hfull : u.cidx + 1#8 = u.chunk := BitVec.eq_of_toNat_eq hnext
      exact ⟨v, hrun.trans (congrArg _ (if_pos hfull)), hr⟩
    · have hmore : u.cidx + 1#8 ≠ u.chunk := fun heq => by
        have := List.length_pos_of_ne_nil hds
        rw [heq] at hnext
        omega
      obtain ⟨w, hrun', hr'⟩ := ih (h.received hr) hds (Nat.le_of_lt_succ hle) hv (by rw [hcidx, hc, hnext]) hr.answers
      refine ⟨w, ?_, hr.trans hr'⟩
      rw [List.length_cons, Nat.mul_succ, Nat.add_comm, run_add (hrun.trans (congrArg _ (if_neg hmore))), hrun']

end Byte

/-! ### The request of a chunk (R132, R133) -/

section Chunk

variable {u : State} {rest : List Nat}

/-- R133, R134: a request that is answered by its count, and the mark of the time. -/
theorem run_request (hcalls : onlyCalls u.inbox = true) (hq : u.seq = .rReq) (hanswers : u.answers = u.chunk.toNat :: rest) :
    ∃ v, Sys2Proof.core.run 2 u = .next v ∧ v.seq = .rAvail ∧ Received [] rest u v
      ∧ v.cidx = u.cidx ∧ v.chunk = u.chunk := by
  have hnext : nextAnswer u = u.chunk.toNat := by simp [nextAnswer, hanswers]
  have hreq : RunsTo 1 1 [.req (busOf u) u.chunk u.chunk] u { u with seq := .rMark } := by
    refine runsTo_answered (fun w => { w with seq := .rMark }) hcalls (hq ▸ rfl) rfl ?_ fun env => rfl
    simp only [perform, hq, stepRReq]
    rw [rxRequest_of_count _ _ _ (hnext ▸ Nat.le_of_lt_succ u.chunk.isLt), hnext, BitVec.ofNat_toNat, BitVec.setWidth_eq,
      if_pos rfl]
  obtain ⟨env, ⟨ha, hi⟩, hrun⟩ := hreq
  let w : State := recorded { u with seq := .rMark } [.req (busOf u) u.chunk u.chunk] env
  have hstep : step w = .next (stepRMark w) := step_of_onlyCalls ((congrArg onlyCalls hi).trans hcalls) rfl
  refine ⟨stepRMark w, (run_add hrun).trans (run_succ 0 hstep), rfl, ?_, ?_, ?_⟩
  · constructor <;> simp [w, stepRMark, markTime, clkMillis, recorded, receivedBytes, stored, hi, ha, hanswers]
    omega
  · simp [w, stepRMark, markTime, clkMillis, recorded]
  · simp [w, stepRMark, markTime, clkMillis, recorded]

/-- R132, R133, R134: a chunk of a read that is answered fully. -/
theorem Reading.run_chunk {ds : List Byte} (h : Reading ds.length u) (hne : ds ≠ []) {cap m : Nat}
    (hcap : u.params.readCap = cap) (hm : m = min cap ds.length)
    (hanswers : u.answers = m :: (ds.take cap).flatMap (fun d => [1, d.toNat]) ++ rest) :
    ∃ v, Sys2Proof.core.run (2 + 3 * m) (nextReadChunk u) = .next (nextReadChunk v) ∧ Received (ds.take cap) rest u v := by
  subst hcap
  have hlen : (ds.take u.params.readCap).length = m := by rw [List.length_take, hm]
  have hcap := (readCap_bounds u.params).1
  have hpos := List.length_pos_of_ne_nil hne
  obtain ⟨hrem, -⟩ | ⟨-, hnext⟩ := nextReadChunk_cases u
  · exact absurd (h.rem.symm.trans (congrArg BitVec.toNat hrem)) hpos.ne'
  have hx := readChunk_toNat u
  rw [h.rem, ← hm] at hx hnext
  let w : State := { u with chunk := BitVec.ofNat 8 m, cidx := 0#8, seq := .rReq }
  obtain ⟨v, hrun, hq, hr, hcidx, hchunk⟩ := run_request (u := w) h.calls rfl (hanswers.trans (by rw [hx, List.cons_append]))
  have hv : Received [] _ u v := ⟨hr.hist, hr.cursor, hr.bptr, hr.rem, hr.buf, hr.bufLen, hr.params, hr.inbox, hr.answers⟩
  have htake : ds.take u.params.readCap ≠ [] := List.ne_nil_of_length_pos (by omega)
  have hfull : v.cidx.toNat + (ds.take u.params.readCap).length = v.chunk.toNat := by
    rw [hcidx, hchunk, hx, hlen]
    exact Nat.zero_add m
  obtain ⟨z, hrun', hz⟩ := (h.received hv).run_drain htake (List.length_take_le' _ _) hq hfull hv.answers
  refine ⟨z, ?_, hv.trans hz⟩
  rw [hnext, run_add hrun, ← hlen, hrun']

/-- The number of requests for n bytes (R132). -/
theorem requestCount_of_pos {cap n : Nat} (hcap : 0 < cap) (hn : 0 < n) :
    (n + (cap - 1)) / cap = (n - cap + (cap - 1)) / cap + 1 := by
  obtain hle | hgt := Nat.le_total n cap
  · rw [Nat.sub_eq_zero_of_le hle, Nat.zero_add, Nat.div_eq_of_lt (Nat.sub_lt hcap Nat.one_pos)]
    exact Nat.div_eq_of_lt_le (by omega) (by omega)
  · rw [← Nat.add_div_right _ hcap]
    congr 1
    omega

theorem received_nil (hanswers : u.answers = rest) : Received [] rest u u := by
  constructor <;> simp [stored, hanswers]
  omega

/-- R132: a read with no byte left finishes. -/
theorem Reading.run_end {cap : Nat} (h : Reading 0 u) (hcap : 0 < cap) :
    Sys2Proof.core.run (2 * ((0 + (cap - 1)) / cap) + 3 * 0) (nextReadChunk u) = .next (finish .success u) := by
  rw [Nat.zero_add, Nat.div_eq_of_lt (Nat.sub_lt hcap Nat.one_pos)]
  obtain ⟨-, hnext⟩ | ⟨hrem, -⟩ := nextReadChunk_cases u
  · exact congrArg _ hnext
  · exact absurd (BitVec.eq_of_toNat_eq h.rem) hrem

/-- R132 to R134: the rest of a read that is answered fully, from the start of a chunk to Done. -/
theorem Reading.run_chunks {fuel : Nat} {ds : List Byte} (h : Reading ds.length u) (hle : ds.length ≤ fuel) {cap : Nat}
    (hcap : u.params.readCap = cap) (hanswers : u.answers = fullReadAnswers cap fuel ds ++ rest) :
    ∃ v, Sys2Proof.core.run (2 * ((ds.length + (cap - 1)) / cap) + 3 * ds.length) (nextReadChunk u) = .next (finish .success v)
      ∧ Received ds rest u v := by
  have hpos : 0 < cap := hcap ▸ (readCap_bounds u.params).1
  induction fuel generalizing ds u with
  | zero =>
    obtain rfl := List.length_eq_zero_iff.mp (Nat.le_zero.mp hle)
    exact ⟨u, h.run_end hpos, received_nil hanswers⟩
  | succ fuel ih =>
    rw [fullReadAnswers] at hanswers
    split at hanswers
    next hnone =>
      subst hnone
      exact ⟨u, h.run_end hpos, received_nil hanswers⟩
    next hsome =>
      obtain ⟨v, hrun, hv⟩ := h.run_chunk (rest := fullReadAnswers cap fuel (ds.drop cap) ++ rest) hsome hcap rfl (by
        rw [hanswers, List.append_assoc])
      have hleft : ds.length - (ds.take cap).length = (ds.drop cap).length := by simp; omega
      have hlen := List.length_pos_of_ne_nil hsome
      obtain ⟨w, hrun', hw⟩ := ih (hleft ▸ h.received hv) (by rw [List.length_drop]; omega) (hv.params ▸ hcap) hv.answers
      refine ⟨w, ?_, List.take_append_drop cap ds ▸ hv.trans hw⟩
      rw [List.length_drop] at hrun'
      rw [requestCount_of_pos hpos hlen, show 2 * ((ds.length - cap + (cap - 1)) / cap + 1) + 3 * ds.length
        = 2 + 3 * min cap ds.length + (2 * ((ds.length - cap + (cap - 1)) / cap) + 3 * (ds.length - cap)) by omega,
        run_add hrun, hrun']

end Chunk

theorem advance_nextReadChunk (k : Nat) (u : State) : advance k (nextReadChunk u) = nextReadChunk (advance k u) := by
  unfold nextReadChunk
  rw [apply_ite (advance k)]
  simp only [advance_eq]
  rfl

theorem startRead_of_fits (ty : ElemType) (s : State) (h : s.cursor.toNat + lengthOf ty s ≤ Config.CAPACITY) :
    startRead ty s = nextReadChunk (loadRange ty s) := by
  rw [startRead_eq, if_neg (Nat.not_lt.mpr h)]

/-- The first request of a read within buffer and device. -/
theorem reading_issuedRange {ty : ElemType} {r : IssueReq} {s : State} {bytes : LentBuffer}
    (hfits : (issuedCursor r s).toNat + issuedLength ty r s ≤ Config.CAPACITY) (hbuf : r.buf = some bytes)
    (hlen : issuedLength ty r s ≤ bytes.val.length) (hcalls : onlyCalls s.inbox.tail = true) :
    Reading (issuedLength ty r s) (issuedRange ty r s) where
  rem := issuedRange_rem hfits
  buffer := by simpa [issuedRange_buf hbuf] using hlen
  bptr := by simpa using (Nat.le_add_left _ _).trans hfits
  calls := by simpa using hcalls

/-- Settles O59: the issue step, and then request after request. -/
theorem fullReadRunsToCompletion : Obligations.FullReadRunsToCompletion := by
  unfold Obligations.FullReadRunsToCompletion
  intro ty bus s r later bytes ds rest hacc hdec hin hcalls hbuf c n cap hn hlen hds hfits hanswers
  obtain ⟨hmem, -⟩ := issuedRange_buf (ty := ty) (s := s) hbuf
  have hstep : step s = .next (nextReadChunk (issuedRange ty r s)) := by
    rw [step_of_accepted (by simpa using hacc) hdec, startOf_read, useOf_read, startRead_of_fits ty _ hfits,
      advance_nextReadChunk, issuedRange]
  have hu : Reading ds.length (issuedRange ty r s) := hds ▸ reading_issuedRange hfits hbuf hlen (by simpa [hin] using hcalls)
  obtain ⟨v, hrun, hv⟩ := hu.run_chunks (fuel := n) (rest := rest) (cap := cap) hds.le (by simp [cap])
    (by simpa using hanswers)
  rw [hds] at hrun
  refine ⟨finish .success v, ?_, rfl, rfl, rfl, rfl, ?_, fun x => ?_, ?_, ?_, hv.answers, ?_⟩
  · rw [show 1 + 2 * ((n + (cap - 1)) / cap) + 3 * n = 2 * ((n + (cap - 1)) / cap) + 3 * n + 1 by omega, run_succ _ hstep, hrun]
  · have hh := hv.hist
    simpa [receivedBytes, issueEvent] using hh
  · rw [finish_buf, hv.buf, hmem, read_stored (Memory.ofBytes_wf _), Memory.read_ofBytes, hds]
    simp
  · rw [finish_cursor, hv.cursor, hds, issuedRange_cursor]
  · rw [finish_bptr, hv.bptr, hds, issuedRange_bptr]
    exact Nat.zero_add n
  · rw [finish_inbox, hv.inbox, issuedRange_inbox, hin, List.tail_cons]

end Sys2Proof.Machine

/-! ## HOST_ORDER takes no part (spec/00_scope.md R8, spec/20_memory.md R57): every operation does the same under either order -/

namespace Sys2Proof.Machine

open Sys2Proof.Safety

/-- u under another HOST_ORDER. -/
def withOrder (o : Config.HostOrder) (u : State) : State := { u with params := { u.params with hostOrder := o } }

section Commutes

variable (o : Config.HostOrder) (u : State)

@[simp] theorem advance_withOrder (k : Nat) : advance k (withOrder o u) = withOrder o (advance k u) := by
  simp only [advance_eq]
  rfl

@[simp] theorem record_withOrder (e : Event) : record e (withOrder o u) = withOrder o (record e u) := rfl

@[simp] theorem dropAnswer_withOrder : dropAnswer (withOrder o u) = withOrder o (dropAnswer u) := by
  simp only [dropAnswer, withOrder]
  split <;> rfl

@[simp] theorem dropPass_withOrder : dropPass (withOrder o u) = withOrder o (dropPass u) := by
  simp only [dropPass, withOrder]
  split <;> rfl

@[simp] theorem finish_withOrder (r : ResultCode) : finish r (withOrder o u) = withOrder o (finish r u) := rfl

@[simp] theorem enterFault_withOrder (f : EngineFault) : enterFault f (withOrder o u) = withOrder o (enterFault f u) :=
  advance_withOrder o { u with seq := .fault f } 0

@[simp] theorem nextWriteChunk_withOrder : nextWriteChunk (withOrder o u) = withOrder o (nextWriteChunk u) := by
  unfold nextWriteChunk
  rw [apply_ite (withOrder o)]
  rfl

@[simp] theorem nextReadChunk_withOrder : nextReadChunk (withOrder o u) = withOrder o (nextReadChunk u) := by
  unfold nextReadChunk
  rw [apply_ite (withOrder o)]
  rfl

@[simp] theorem chunkWritten_withOrder : chunkWritten (withOrder o u) = withOrder o (chunkWritten u) := rfl

@[simp] theorem byteReceived_withOrder (d : Byte) : byteReceived d (withOrder o u) = withOrder o (byteReceived d u) := rfl

@[simp] theorem txWrite_withOrder (b : Byte) : txWrite b (withOrder o u) = withOrder o (txWrite b u) :=
  advance_withOrder o (record (.wr b) u) 0

@[simp] theorem clkMillis_withOrder : clkMillis (withOrder o u) = withOrder o (clkMillis u) :=
  advance_withOrder o (record (.ms (clockReading u)) u) 0

@[simp] theorem clkSleep_withOrder (k : Millis) : clkSleep k (withOrder o u) = withOrder o (clkSleep k u) :=
  advance_withOrder o (record (.sleep k) u) _

@[simp] theorem markTime_withOrder : markTime (withOrder o u) = withOrder o (markTime u) :=
  congrArg (fun v => { v with tmark := clockReading u }) (clkMillis_withOrder o u)

theorem txEnd_withOrder {k : TxStatus → State → State}
    (hk : ∀ status v, k status (withOrder o v) = withOrder o (k status v)) :
    txEnd (withOrder o u) k = withOrder o (txEnd u k) := by
  have ha : nextAnswer (withOrder o u) = nextAnswer u := rfl
  simp only [txEnd, ha, dropAnswer_withOrder, record_withOrder, advance_withOrder, enterFault_withOrder, hk]
  split <;> rfl

theorem rxRequest_withOrder (a n : Byte) {k : Byte → State → State}
    (hk : ∀ m v, k m (withOrder o v) = withOrder o (k m v)) :
    rxRequest a n (withOrder o u) k = withOrder o (rxRequest a n u k) := by
  have ha : nextAnswer (withOrder o u) = nextAnswer u := rfl
  simp only [rxRequest, ha, dropAnswer_withOrder, record_withOrder, advance_withOrder, enterFault_withOrder, hk,
    apply_ite (withOrder o)]

theorem rxAvailable_withOrder {k : Bool → State → State} (hk : ∀ b v, k b (withOrder o v) = withOrder o (k b v)) :
    rxAvailable (withOrder o u) k = withOrder o (rxAvailable u k) := by
  have ha : nextAnswer (withOrder o u) = nextAnswer u := rfl
  simp only [rxAvailable, ha, dropAnswer_withOrder, record_withOrder, advance_withOrder, enterFault_withOrder, hk,
    apply_ite (withOrder o)]

theorem rxRead_withOrder {k : Byte → State → State} (hk : ∀ d v, k d (withOrder o v) = withOrder o (k d v)) :
    rxRead (withOrder o u) k = withOrder o (rxRead u k) := by
  have ha : nextAnswer (withOrder o u) = nextAnswer u := rfl
  simp only [rxRead, ha, dropAnswer_withOrder, record_withOrder, advance_withOrder, enterFault_withOrder, hk,
    apply_ite (withOrder o)]

/-- No primitive looks at HOST_ORDER. -/
theorem perform_withOrder : perform (withOrder o u) = withOrder o (perform u) := by
  have hseq : (withOrder o u).seq = u.seq := rfl
  have hrow (e : Event) (k : Nat) (q : Seq) : { advance k (record e (withOrder o u)) with seq := q }
      = withOrder o { advance k (record e u) with seq := q } := by
    rw [record_withOrder, advance_withOrder]
    rfl
  cases hq : u.seq <;> simp only [perform, hseq, hq]
  case idle | fault => exact advance_withOrder o u 0
  case wBegin | wAhi | wAlo | wPsleep | pBegin | pAhi | pAlo | aBegin | aAhi | aAlo => exact hrow _ _ _
  case wData =>
    unfold stepWData
    rw [apply_ite (withOrder o), enterFault_withOrder]
    exact if_congr Iff.rfl rfl (congrArg (fun v => { v with
      cidx := u.cidx + 1#8, seq := if u.cidx + 1#8 < u.chunk then .wData else .wEnd })
      (txWrite_withOrder o u (Memory.read u.buf (writeIndex u))))
  case wEnd =>
    refine txEnd_withOrder o u fun status v => ?_
    rw [apply_ite (withOrder o), finish_withOrder, chunkWritten_withOrder]
  case wSettle => exact (congrArg nextWriteChunk (clkSleep_withOrder o u u.settle)).trans (nextWriteChunk_withOrder o _)
  case wPmark => exact congrArg (fun v => { v with seq := .wPsleep }) (markTime_withOrder o u)
  case rMark => exact congrArg (fun v => { v with seq := .rAvail }) (markTime_withOrder o u)
  case pEnd =>
    refine txEnd_withOrder o u fun status v => ?_
    rw [apply_ite (withOrder o), nextWriteChunk_withOrder]
    rfl
  case wPchk =>
    unfold stepWPchk
    rw [clkMillis_withOrder, finish_withOrder, apply_ite (withOrder o)]
    rfl
  case rReq =>
    refine rxRequest_withOrder o u _ _ fun m v => ?_
    rw [apply_ite (withOrder o), finish_withOrder]
    rfl
  case rAvail => exact rxAvailable_withOrder o u fun b v => rfl
  case rByte =>
    unfold stepRByte
    rw [enterFault_withOrder, rxRead_withOrder o u fun d v => byteReceived_withOrder o v d, apply_ite (withOrder o)]
    rfl
  case rTmark =>
    unfold stepRTmark
    rw [markTime_withOrder, nextReadChunk_withOrder, apply_ite (withOrder o)]
    rfl
  case rTchk =>
    unfold stepRTchk
    rw [clkMillis_withOrder, finish_withOrder, apply_ite (withOrder o)]
    rfl
  case aEnd => exact txEnd_withOrder o u fun status v => finish_withOrder o v _

theorem startWrite_withOrder (ty : ElemType) : startWrite ty (withOrder o u) = withOrder o (startWrite ty u) := by
  simp only [startWrite, apply_ite (withOrder o), ← finish_withOrder, ← nextWriteChunk_withOrder]
  rfl

theorem startRead_withOrder (ty : ElemType) : startRead ty (withOrder o u) = withOrder o (startRead ty u) := by
  simp only [startRead, apply_ite (withOrder o), ← finish_withOrder, ← nextReadChunk_withOrder]
  rfl

theorem startSeek_withOrder (ty : ElemType) : startSeek ty (withOrder o u) = withOrder o (startSeek ty u) := by
  simp only [startSeek, apply_ite (withOrder o), ← finish_withOrder]
  rfl

/-- No issue pseudocode looks at HOST_ORDER (R100, R120, R130). -/
theorem startOf_withOrder (i : Instr) : startOf i (withOrder o u) = withOrder o (startOf i u) := by
  obtain ⟨ty, bus, rfl⟩ | ⟨ty, bus, rfl⟩ | ⟨ty, bus, rfl⟩ | ⟨bus, rfl⟩ := instr_cases i
  · rw [startOf_write, startWrite_withOrder]
  · rw [startOf_read, startRead_withOrder]
  · rw [startOf_seek, startSeek_withOrder]
  · rfl

theorem refuse_withOrder (word : CmdWord) (reasons : List RefuseReason) :
    refuse word reasons (withOrder o u) = withOrder o (refuse word reasons u) :=
  advance_withOrder o { u with hist := u.hist ++ [.refused word], reply := .refused reasons, inbox := u.inbox.tail } 0

theorem hostAnswered_withOrder (n : Nat) : hostAnswered n (withOrder o u) = withOrder o (hostAnswered n u) :=
  advance_withOrder o { u with reply := .value n, inbox := u.inbox.tail } 0

theorem hostReset_withOrder : hostReset (withOrder o u) = withOrder o (hostReset u) := by
  simp only [hostReset, ← advance_withOrder]
  rfl

theorem hostRead_withOrder (reg : HostReg) :
    hostRead reg (withOrder o u) = mapNext (withOrder o) (hostRead reg u) := by
  cases reg <;> simp only [hostRead, readValue, hostAnswered_withOrder, apply_ite (mapNext (withOrder o))] <;> rfl

theorem sequencerStep_withOrder : sequencerStep (withOrder o u) = mapNext (withOrder o) (sequencerStep u) := by
  have hs : (withOrder o u).seq = u.seq := rfl
  have hi : (withOrder o u).inbox = u.inbox := rfl
  simp only [sequencerStep, dropPass_withOrder, perform_withOrder, hs, hi]
  split <;> rfl

theorem exec_withOrder (i : Instr) : exec i (withOrder o u) = mapNext (withOrder o) (exec i u) := by
  have hf : fetch (withOrder o u) = fetch u := rfl
  have hr (r) : refuseReasons true (useOf i) r (withOrder o u) = refuseReasons true (useOf i) r u := rfl
  simp only [exec_eq, command, hf, hr]
  split
  next r _ =>
    split
    · exact congrArg Host.Outcome.next ((congrArg (advance 0) (startOf_withOrder o (accept (encode i) (useOf i) r u) i)).trans
        (advance_withOrder o _ 0))
    · exact congrArg Host.Outcome.next (refuse_withOrder o u _ _)
  next => exact sequencerStep_withOrder o u

/-- No step looks at HOST_ORDER. -/
theorem step_withOrder : step (withOrder o u) = mapNext (withOrder o) (step u) := by
  have ha : nextActivity (withOrder o u) = nextActivity u := rfl
  simp only [step, ha]
  split
  · exact congrArg Host.Outcome.next (hostReset_withOrder o u)
  · exact hostRead_withOrder o u _
  · exact exec_withOrder o u _
  · exact congrArg Host.Outcome.next (refuse_withOrder o u _ _)
  · exact sequencerStep_withOrder o u

end Commutes

/-- Settles O54: a step does the same under either HOST_ORDER. -/
theorem hostOrderTakesNoPart : Obligations.HostOrderTakesNoPart := by
  unfold Obligations.HostOrderTakesNoPart
  intro s t o hstep
  exact (step_withOrder o s).trans (congrArg (mapNext (withOrder o)) hstep)

end Sys2Proof.Machine

/-! ## Typed commands after issue (spec/43_typed.md R158) -/

namespace Sys2Proof.Machine

open Sys2Proof.Safety

/-- u with another CMD and LEN, and the events h in the place of the first n of HIST. -/
def relabelled (word : CmdWord) (len : Count) (h : List Event) (n : Nat) (u : State) : State :=
  { u with cmd := word, len := len, hist := h ++ u.hist.drop n }

section Relabelled

variable (word : CmdWord) (len : Count) (h : List Event) {n : Nat} {u : State}

theorem advance_relabelled (k : Nat) : advance k (relabelled word len h n u) = relabelled word len h n (advance k u) := by
  simp only [advance_eq]
  rfl

theorem finish_relabelled (hn : n ≤ u.hist.length) (r : ResultCode) :
    finish r (relabelled word len h n u) = relabelled word len h n (finish r u) := by
  simp [finish, relabelled, List.drop_append_of_le_length hn]

theorem nextWriteChunk_relabelled (hn : n ≤ u.hist.length) :
    nextWriteChunk (relabelled word len h n u) = relabelled word len h n (nextWriteChunk u) := by
  unfold nextWriteChunk
  rw [apply_ite (relabelled word len h n), finish_relabelled word len h hn]
  rfl

theorem nextReadChunk_relabelled (hn : n ≤ u.hist.length) :
    nextReadChunk (relabelled word len h n u) = relabelled word len h n (nextReadChunk u) := by
  unfold nextReadChunk
  rw [apply_ite (relabelled word len h n), finish_relabelled word len h hn]
  rfl

variable {ty : ElemType} (hlen : len.toNat = lengthOf ty u) (hn : n ≤ u.hist.length)

include hlen

theorem lengthOf_relabelled : lengthOf .b (relabelled word len h n u) = lengthOf ty u :=
  (Nat.mul_one _).trans hlen

theorem byteLength_relabelled : byteLength u.params .b len = byteLength u.params ty u.len :=
  congrArg (BitVec.ofNat 20) ((Nat.mul_one _).trans hlen)

theorem loadByteLength_relabelled :
    loadByteLength .b (relabelled word len h n u) = relabelled word len h n (loadByteLength ty u) :=
  congrArg (fun b => { relabelled word len h n u with bytelen := b }) (byteLength_relabelled len hlen)

theorem loadRange_relabelled :
    loadRange .b (relabelled word len h n u) = relabelled word len h n (loadRange ty u) :=
  congrArg (fun b => { relabelled word len h n u with bytelen := b, rem := b.setWidth 17, bptr := 0#17 })
    (byteLength_relabelled len hlen)

include hn

theorem startWrite_relabelled :
    startWrite .b (relabelled word len h n u) = relabelled word len h n (startWrite ty u) := by
  rw [startWrite_eq, startWrite_eq, lengthOf_relabelled word len h hlen, loadByteLength_relabelled word len h hlen,
    loadRange_relabelled word len h hlen, apply_ite (relabelled word len h n)]
  exact if_congr Iff.rfl (finish_relabelled (u := loadByteLength ty u) word len h hn _)
    (nextWriteChunk_relabelled (u := loadRange ty u) word len h hn)

theorem startRead_relabelled :
    startRead .b (relabelled word len h n u) = relabelled word len h n (startRead ty u) := by
  rw [startRead_eq, startRead_eq, lengthOf_relabelled word len h hlen, loadByteLength_relabelled word len h hlen,
    loadRange_relabelled word len h hlen, apply_ite (relabelled word len h n)]
  exact if_congr Iff.rfl (finish_relabelled (u := loadByteLength ty u) word len h hn _)
    (nextReadChunk_relabelled (u := loadRange ty u) word len h hn)

theorem startSeek_relabelled :
    startSeek .b (relabelled word len h n u) = relabelled word len h n (startSeek ty u) := by
  rw [startSeek_eq, startSeek_eq, lengthOf_relabelled word len h hlen, loadByteLength_relabelled word len h hlen,
    apply_ite (relabelled word len h n)]
  exact if_congr Iff.rfl (finish_relabelled (u := loadByteLength ty u) word len h hn _) rfl

end Relabelled

section Scaled

variable {s t : State} {r r' : IssueReq} {rest : List HostMove}

theorem accept_relabelled (word word' : CmdWord) (use : BufferUse) (hin : s.inbox = .issue r :: rest) (hcur : r'.cur = r.cur)
    (hsettle : r'.settle = r.settle) (hbuf : r'.buf = r.buf) :
    accept word' use r' { s with inbox := .issue r' :: rest }
      = relabelled word' r'.len (s.hist ++ [issueEvent word' use r']) (s.hist.length + 1) (accept word use r s) := by
  have hlent : lentBytes use r' = lentBytes use r := by simp only [lentBytes, hbuf]
  simp [accept, relabelled, hlent, hcur, hsettle, hin, issueEvent]

/-- R158: the issue step of a typed command i and that of the byte command j, whose pseudocode does the same but for CMD, LEN and
the Issue event. -/
theorem scaledIssue {i j : Instr} (hin : s.inbox = .issue r :: rest) (hcur : r'.cur = r.cur)
    (hsettle : r'.settle = r.settle) (hbuf : r'.buf = r.buf) (huse : useOf i = useOf j) (hbus : i.bus = j.bus)
    (hstart : ∀ h, startOf j (relabelled (encode j) r'.len h (s.hist.length + 1) (accept (encode i) (useOf j) r s))
      = relabelled (encode j) r'.len h (s.hist.length + 1) (startOf i (accept (encode i) (useOf j) r s)))
    (h : exec i s = .next t) (hacc : Accepted (useOf j) r s) :
    ∃ t', exec j { s with inbox := .issue r' :: rest } = .next t' ∧ busOf t' = busOf t
      ∧ t' = { t with
          cmd := encode j, len := r'.len,
          hist := s.hist ++ [.issue (encode j) r.cur r'.len r.settle t.bufLen] ++ t.hist.drop (s.hist.length + 1) } := by
  cases (exec_of_accepted (huse ▸ hacc)).symm.trans h
  obtain ⟨-, hidle, hcursor, hneeded⟩ := hacc
  have hacc' : Accepted (useOf j) r' { s with inbox := .issue r' :: rest } :=
    ⟨rfl, hidle, hcur ▸ hcursor, fun hu => hbuf ▸ hneeded hu⟩
  have hexec := exec_of_accepted hacc'
  rw [accept_relabelled (encode i) _ _ hin hcur hsettle hbuf, hstart, advance_relabelled] at hexec
  rw [huse]
  obtain ⟨hcmd, -, -, -, -, hlen, -⟩ := (startOf_cases i (accept (encode i) (useOf j) r s)).keepsIssue
  refine ⟨_, hexec, ?_, ?_⟩
  · rw [busOf_of_cmd (i := j) rfl, ← hbus]
    exact (busOf_of_cmd (by simpa using hcmd)).symm
  · simp [relabelled, issueEvent, lentBytes, hlen, hcur, hsettle, hbuf]

end Scaled

/-- Settles O18: of the typed command and of the byte command, the pseudocode is one, on the same byte length. -/
theorem typedCommandIsScaledByteCommand : Obligations.TypedCommandIsScaledByteCommand := by
  unfold Obligations.TypedCommandIsScaledByteCommand
  intro ty bus s r r' rest hin hcur hsettle hbuf hlen
  have hhist (word use) : s.hist.length + 1 ≤ (accept word use r s).hist.length := by simp
  refine ⟨fun t h hacc => ?_, fun t h hacc => ?_, fun t h hacc => ?_⟩
  · refine scaledIssue (i := .write ty bus) (j := .write .b bus) hin hcur hsettle hbuf (by simp) (by simp) (fun h => ?_) h
      (by simpa using hacc)
    rw [startOf_write, startOf_write]
    exact startWrite_relabelled _ _ h hlen (hhist _ _)
  · refine scaledIssue (i := .read ty bus) (j := .read .b bus) hin hcur hsettle hbuf (by simp) (by simp) (fun h => ?_) h
      (by simpa using hacc)
    rw [startOf_read, startOf_read]
    exact startRead_relabelled _ _ h hlen (hhist _ _)
  · refine scaledIssue (i := .seek ty bus) (j := .seek .b bus) hin hcur hsettle hbuf (by simp) (by simp) (fun h => ?_) h
      (by simpa using hacc)
    rw [startOf_seek, startOf_seek]
    exact startSeek_relabelled _ _ h hlen (hhist _ _)

end Sys2Proof.Machine
